-- ==== Sys2Proof/Word.lean ====
section
/-! DEFINITION. The words of the block: bytes, the 24-bit message word, the numeric type Num and the kernel's Phase. -/

namespace Sys2Proof

/-- A byte: 8 bits, bit 7 the most significant (00_scope R7). -/
abbrev Byte := BitVec 8

/-- The message word `W = b0 ++ b1 ++ b2` (10_state R60, 30_encoding R91). -/
abbrev MsgWord := BitVec 24

/-- A value of `Num`, the numeric type of action values, parameters and samples (00_scope R6): held as a 64-bit word, so
that it is plain data. What a word stands for is a matter of the numeric type (`NumType`, Config.lean).
DESIGN CHOICE (log 1). -/
abbrev Num64 := BitVec 64

/-- The DSP kernel's opaque `Phase` (10_state R45): a code number; the block stores it and hands it back.
DESIGN CHOICE (log 8). -/
abbrev Phase := Nat

/-- A buffer of samples, indexed by sample number (00_scope R9). Only indices below `BUFFER_SAMPLES` are ever sent. -/
abbrev Buffer := Nat → Num64

end Sys2Proof
end

