-- ==== Sys2Proof/Syntax.lean ====
section
/-! DEFINITION. The transactions at the block's ports, the actions of its internal bus, and Instr: one constructor per row
of spec/opcode_table.json. -/

namespace Sys2Proof

/-- The action codes (30_encoding R100): codes 0 to 16, UNISON (17), and the reserved codes 18 to 31 by their distance
from 18. -/
inductive ActionCode where
  | masterVol
  | addNote
  | removeNote
  | layerSelect
  | layerAmp
  | layerRec
  | oscSelect
  | oscMute
  | oscAmp
  | oscType
  | oscOctave
  | oscPitch
  | modSelect
  | envelope
  | lfo
  | filterCutoff
  | power
  | unison
  | reserved (n : Fin 14)
deriving DecidableEq, Repr

/-- The number of an action code (30_encoding R100). -/
def ActionCode.number : ActionCode → Nat
  | .masterVol => 0
  | .addNote => 1
  | .removeNote => 2
  | .layerSelect => 3
  | .layerAmp => 4
  | .layerRec => 5
  | .oscSelect => 6
  | .oscMute => 7
  | .oscAmp => 8
  | .oscType => 9
  | .oscOctave => 10
  | .oscPitch => 11
  | .modSelect => 12
  | .envelope => 13
  | .lfo => 14
  | .filterCutoff => 15
  | .power => 16
  | .unison => 17
  | .reserved n => 18 + n.val

/-- An action, the triple `(code, param, value)` of the internal action bus (10_state R61). -/
structure Action where
  code : ActionCode
  param : Int
  value : Num64
deriving DecidableEq, Repr

/-- One transaction (20_memory R70): a 3-byte message at `P_MIDI_IN` (10_state R60), a buffer request at `P_AUDIO` (R62),
or an action a test bench puts on the internal action bus (R61, 60_exceptions R262), its code the 5-bit code number. -/
inductive Txn where
  | midi (b0 b1 b2 : Byte)
  | buf
  | bus (code : BitVec 5) (param : Int) (value : Num64)
deriving DecidableEq, Repr

/-- The instructions: the rows of spec/opcode_table.json. A message row holds every bit its pattern leaves free: the
channel nibble `ch` (ignored, 30_encoding R93), the key `k` or low bend bits `l`, the low controller bits `idx` and the
value `v`. An action row holds the param and the value of the action; the rows of LAYER_REC fix the param. -/
inductive Instr where
  /-- NOTE_ON (40_decoder R111): k is the key, v the velocity -/
  | noteOn (ch : BitVec 4) (k : BitVec 7) (v : BitVec 7)
  /-- NOTE_ON_ZERO (40_decoder R112): a note-on of velocity 0: no action -/
  | noteOnZero (ch : BitVec 4) (k : BitVec 7)
  /-- NOTE_OFF (40_decoder R113): k is the key, v the release velocity -/
  | noteOff (ch : BitVec 4) (k : BitVec 7) (v : BitVec 7)
  /-- BEND_CENTRE (40_decoder R114): l is the low 7 bits of the bend: no action -/
  | bendCentre (ch : BitVec 4) (l : BitVec 7)
  /-- BEND (40_decoder R115): l is the low 7 bits of the bend, v the high 7 -/
  | bend (ch : BitVec 4) (l : BitVec 7) (v : BitVec 7)
  /-- CC_MASTER_VOL (40_decoder R116) -/
  | ccMasterVol (ch : BitVec 4) (v : BitVec 7)
  /-- CC_LAYER_SELECT (40_decoder R117): button -/
  | ccLayerSelect (ch : BitVec 4) (idx : BitVec 2) (v : BitVec 7)
  /-- CC_LAYER_AMP (40_decoder R118) -/
  | ccLayerAmp (ch : BitVec 4) (idx : BitVec 2) (v : BitVec 7)
  /-- CC_LAYER_REC_STOP (40_decoder R119): button -/
  | ccLayerRecStop (ch : BitVec 4) (v : BitVec 7)
  /-- CC_LAYER_REC_PAUSE (40_decoder R120): button -/
  | ccLayerRecPause (ch : BitVec 4) (v : BitVec 7)
  /-- CC_LAYER_REC_RECORD (40_decoder R121): button -/
  | ccLayerRecRecord (ch : BitVec 4) (v : BitVec 7)
  /-- CC_POWER (40_decoder R122): button -/
  | ccPower (ch : BitVec 4) (v : BitVec 7)
  /-- CC_OSC_SELECT (40_decoder R123): button -/
  | ccOscSelect (ch : BitVec 4) (idx : BitVec 2) (v : BitVec 7)
  /-- CC_OSC_MUTE (40_decoder R124): button -/
  | ccOscMute (ch : BitVec 4) (idx : BitVec 2) (v : BitVec 7)
  /-- CC_OSC_AMP (40_decoder R125) -/
  | ccOscAmp (ch : BitVec 4) (idx : BitVec 2) (v : BitVec 7)
  /-- CC_OSC_TYPE (40_decoder R126): button -/
  | ccOscType (ch : BitVec 4) (v : BitVec 7)
  /-- CC_OCTAVE_DOWN (40_decoder R127): button -/
  | ccOctaveDown (ch : BitVec 4) (v : BitVec 7)
  /-- CC_OCTAVE_UP (40_decoder R128): button -/
  | ccOctaveUp (ch : BitVec 4) (v : BitVec 7)
  /-- CC_MOD_AMP (40_decoder R129): button -/
  | ccModAmp (ch : BitVec 4) (v : BitVec 7)
  /-- CC_MOD_PITCH (40_decoder R130): button -/
  | ccModPitch (ch : BitVec 4) (v : BitVec 7)
  /-- CC_MOD_FILTER (40_decoder R131): button -/
  | ccModFilter (ch : BitVec 4) (v : BitVec 7)
  /-- CC_ENVELOPE (40_decoder R132) -/
  | ccEnvelope (ch : BitVec 4) (idx : BitVec 2) (v : BitVec 7)
  /-- CC_LFO_SPEED (40_decoder R133) -/
  | ccLfoSpeed (ch : BitVec 4) (v : BitVec 7)
  /-- CC_LFO_AMP (40_decoder R134) -/
  | ccLfoAmp (ch : BitVec 4) (v : BitVec 7)
  /-- CC_FILTER_CUTOFF (40_decoder R135) -/
  | ccFilterCutoff (ch : BitVec 4) (v : BitVec 7)
  /-- NO_MATCH (40_decoder R136): every word no other row matches -/
  | noMatch (w : MsgWord)
  /-- BUF (43_mixer R240): a buffer request -/
  | buf
  /-- ACT_MASTER_VOL (41_actions R154) -/
  | actMasterVol (param : Int) (value : Num64)
  /-- ACT_ADD_NOTE (41_actions R161) -/
  | actAddNote (param : Int) (value : Num64)
  /-- ACT_REMOVE_NOTE (41_actions R162) -/
  | actRemoveNote (param : Int) (value : Num64)
  /-- ACT_LAYER_SELECT (41_actions R155) -/
  | actLayerSelect (param : Int) (value : Num64)
  /-- ACT_LAYER_AMP (41_actions R156) -/
  | actLayerAmp (param : Int) (value : Num64)
  /-- ACT_LAYER_REC_STOP (41_actions R158) -/
  | actLayerRecStop (value : Num64)
  /-- ACT_LAYER_REC_PAUSE (41_actions R159) -/
  | actLayerRecPause (value : Num64)
  /-- ACT_LAYER_REC_RECORD (41_actions R160) -/
  | actLayerRecRecord (value : Num64)
  /-- ACT_OSC_SELECT (41_actions R165) -/
  | actOscSelect (param : Int) (value : Num64)
  /-- ACT_OSC_MUTE (41_actions R166) -/
  | actOscMute (param : Int) (value : Num64)
  /-- ACT_OSC_AMP (41_actions R167) -/
  | actOscAmp (param : Int) (value : Num64)
  /-- ACT_OSC_TYPE (41_actions R168) -/
  | actOscType (param : Int) (value : Num64)
  /-- ACT_OSC_OCTAVE (41_actions R169) -/
  | actOscOctave (param : Int) (value : Num64)
  /-- ACT_OSC_PITCH (41_actions R170) -/
  | actOscPitch (param : Int) (value : Num64)
  /-- ACT_MOD_SELECT (41_actions R171) -/
  | actModSelect (param : Int) (value : Num64)
  /-- ACT_ENVELOPE (41_actions R172) -/
  | actEnvelope (param : Int) (value : Num64)
  /-- ACT_LFO (41_actions R173) -/
  | actLfo (param : Int) (value : Num64)
  /-- ACT_FILTER_CUTOFF (41_actions R174) -/
  | actFilterCutoff (param : Int) (value : Num64)
  /-- ACT_POWER (41_actions R187) -/
  | actPower (param : Int) (value : Num64)
  /-- ACT_UNISON (41_actions R188) -/
  | actUnison (param : Int) (value : Num64)
  /-- ACT_RESERVED_18 (41_actions R188) -/
  | actReserved18 (param : Int) (value : Num64)
  /-- ACT_RESERVED_19 (41_actions R188) -/
  | actReserved19 (param : Int) (value : Num64)
  /-- ACT_RESERVED_20 (41_actions R188) -/
  | actReserved20 (param : Int) (value : Num64)
  /-- ACT_RESERVED_21 (41_actions R188) -/
  | actReserved21 (param : Int) (value : Num64)
  /-- ACT_RESERVED_22 (41_actions R188) -/
  | actReserved22 (param : Int) (value : Num64)
  /-- ACT_RESERVED_23 (41_actions R188) -/
  | actReserved23 (param : Int) (value : Num64)
  /-- ACT_RESERVED_24 (41_actions R188) -/
  | actReserved24 (param : Int) (value : Num64)
  /-- ACT_RESERVED_25 (41_actions R188) -/
  | actReserved25 (param : Int) (value : Num64)
  /-- ACT_RESERVED_26 (41_actions R188) -/
  | actReserved26 (param : Int) (value : Num64)
  /-- ACT_RESERVED_27 (41_actions R188) -/
  | actReserved27 (param : Int) (value : Num64)
  /-- ACT_RESERVED_28 (41_actions R188) -/
  | actReserved28 (param : Int) (value : Num64)
  /-- ACT_RESERVED_29 (41_actions R188) -/
  | actReserved29 (param : Int) (value : Num64)
  /-- ACT_RESERVED_30 (41_actions R188) -/
  | actReserved30 (param : Int) (value : Num64)
  /-- ACT_RESERVED_31 (41_actions R188) -/
  | actReserved31 (param : Int) (value : Num64)
deriving DecidableEq, Repr

end Sys2Proof
end

