-- ==== Sys2Proof/Config.lean ====
section
/-! DEFINITION. The parameters of the block (00_scope R6): the structure Config of everything the host fixes before the
first transaction (70_reset R293), which every rule takes as its argument `c`; and Config.open, the parameters for which the
model names no value, which has no body, so that nothing can be proved about a value of it. Machine/Parameters.lean reads
the parameters out of a Config, each within the bounds the spec gives it; Machine/Reference.lean holds Config.chip, the
parameters of the block that runs. -/

namespace Sys2Proof

/-- The modulation targets (10_state R44): 0 amp, 1 pitch, 2 filter; value 3 is never held. -/
inductive ModTarget where
  | amp
  | pitch
  | filter
deriving DecidableEq, Repr, Inhabited

/-- An EnvelopeSpec (10_state R42). -/
structure Envelope where
  attackMs : Num64
  decayMs : Num64
  sustain : Num64
  releaseMs : Num64
deriving DecidableEq, Repr, Inhabited

/-- An LFOSpec (10_state R43). -/
structure Lfo where
  speedHz : Num64
  amplitude : Num64
deriving DecidableEq, Repr, Inhabited

/-- The parameter block of a Bank (10_state R35 to R44; R40, the pitch, is derived). -/
structure Params where
  /-- R35 -/
  waveform : Fin 4
  /-- R36 -/
  amplitude : Num64
  /-- R37 -/
  octave : Int
  /-- R38 -/
  steps : Num64
  /-- R39 -/
  cents : Num64
  /-- R41 -/
  cutoffHz : Num64
  /-- R42, `env[0]` -/
  envAmp : Envelope
  /-- R42, `env[1]` -/
  envPitch : Envelope
  /-- R42, `env[2]` -/
  envFilter : Envelope
  /-- R43, `lfo[0]` -/
  lfoAmp : Lfo
  /-- R43, `lfo[1]` -/
  lfoPitch : Lfo
  /-- R44 -/
  modTarget : ModTarget
deriving DecidableEq, Repr, Inhabited

/-- What one call of VoiceKernel returns (60_exceptions R268): one buffer, the phase advanced by one buffer, and whether
the amplitude envelope has decayed to zero while releasing. -/
structure KernelResult where
  buf : Buffer
  phase : Phase
  kernelDone : Bool
deriving Inhabited

/-- `Num`, the numeric type (00_scope R6): the operations the rules use on its values, with what every numeric type meets:
a value in order with another is no NaN, the order is one, and the constants of the rules are apart. -/
structure NumType where
  /-- an integer converted -/
  ofInt : Int → Num64
  /-- the literal `p / q` -/
  ofRatio : (p : Int) → (q : Nat) → Num64
  add : Num64 → Num64 → Num64
  sub : Num64 → Num64 → Num64
  mul : Num64 → Num64 → Num64
  div : Num64 → Num64 → Num64
  /-- `x < y` -/
  lt : Num64 → Num64 → Bool
  /-- `x <= y` -/
  le : Num64 → Num64 → Bool
  /-- not a number, where the type has such values -/
  isNaN : Num64 → Bool
  /-- neither infinite nor NaN, where the type has such values -/
  isFinite : Num64 → Bool
  /-- `x = 0` -/
  isZero : Num64 → Bool
  /-- `x = trunc(x)` -/
  isInteger : Num64 → Bool
  /-- rounded toward zero (00_scope R7) -/
  trunc : Num64 → Int
  /-- `exp(x)` (41_actions R175) -/
  exp : Num64 → Num64
  /-- `n ^ e` (40_decoder R135) -/
  powE : Num64 → Num64
  lt_notNaN : ∀ x y, lt x y = true → isNaN x = false ∧ isNaN y = false
  lt_irrefl : ∀ x, lt x x = false
  le_of_lt : ∀ x y, lt x y = true → le x y = true
  le_of_not_lt : ∀ x y, isNaN x = false → isNaN y = false → lt x y = false → le y x = true
  minus_one_lt_one : lt (ofInt (-1)) (ofInt 1) = true
  zero_lt_twenty : lt (ofInt 0) (ofInt 20) = true
  hundred_lt_twenty_thousand : lt (ofInt 100) (ofInt 20000) = true
  twenty_finite : isFinite (ofInt 20) = true
  twenty_thousand_finite : isFinite (ofInt 20000) = true
  one_not_zero : isZero (ofInt 1) = false
  one_integer : isInteger (ofInt 1) = true
  minus_one_integer : isInteger (ofInt (-1)) = true

/-- A row's condition on `b2` (30_encoding R94). -/
inductive Cond where
  | any
  | ne (n : Byte)
  | eq (n : Byte)
deriving DecidableEq, Repr

/-- A row of a DecodeTable (30_encoding R94): its mnemonic, `match` and `mask` over the word, its condition on `b2`, and the
instruction it reads from a word that matches. That instruction derives the row's action, or no action
(`Machine.busAction`): a row of the reference table reads a message row of Instr, a row of another table may read any, an
ACT_ row being any action. -/
structure DecodeRow where
  mnemonic : String
  pattern : MsgWord
  mask : MsgWord
  cond : Cond
  build : MsgWord → Instr

/-- The parameters that have no value in the model, each field holding what is left once its bound is taken out (log 7), the
DSP kernel's three functions (60_exceptions R268; log 8, log 9), and the free values of a clamped NaN (93 X17; log 10). -/
structure OpenParams where
  /-- `BUFFER_SAMPLES` less 1 -/
  bufferSamplesLess1 : Nat
  /-- `SAMPLE_RATE` less 1 -/
  sampleRateLess1 : Nat
  /-- `MAX_RECORDING` less 1 -/
  maxRecordingLess1 : Nat
  /-- `MAX_CUTOFF`, where it is finite and above 100 -/
  maxCutoffRaw : Num64
  /-- `LFO_SPEED_MAX_HZ`, where it is finite and above 0 -/
  lfoSpeedMaxRaw : Num64
  /-- `TS_BITS` less 32, or none where it is unbounded -/
  tsBitsLess32 : Option Nat
  /-- `PARAM_BITS` less 8 -/
  paramBitsLess8 : Nat
  /-- `OCT_BITS` less 8, or none where it is unbounded -/
  octBitsLess8 : Option Nat
  /-- `VoiceKernel(P, note, phase, releasing)`, the block's parameter block given with its derived pitch -/
  voiceKernel : Params → (pitch : Num64) → (note : Int) → Phase → (releasing : Bool) → KernelResult
  /-- `VoiceInit(note)` -/
  voiceInit : Int → Phase
  /-- `ReleaseStart(phase)` -/
  releaseStart : Phase → Phase
  /-- what a NaN sample is clamped to: of a draw and a sample index, where it lies in `[-1, 1]` -/
  nanSampleRaw : Nat → Nat → Num64
  /-- what a NaN cutoff is clamped to: of a draw, where it lies in `[100, MAX_CUTOFF]` -/
  nanCutoffRaw : Nat → Num64
deriving Inhabited

/-- The parameters a model takes as arguments (00_scope R6, 70_reset R293): those above and the ones the spec gives a
reference for. -/
structure Config extends OpenParams where
  /-- `Num` (92 D3) -/
  num : NumType
  /-- `DecodeTable` (30_encoding R94, R95) -/
  decodeTable : List DecodeRow
  /-- `PCM_QUANT` (43_mixer R242): of a clamped sample, a 16-bit code in two's complement, so in `[-32768, 32767]` (93 X11) -/
  pcmQuant : Num64 → BitVec 16
  /-- `MIDI_TO_A4`, the absolute note code of A4 -/
  midiToA4 : Int
  /-- `FactoryBank`, where its cutoff, its amp sustain and its octave meet the constraints of 70_reset R292 -/
  factoryBankRaw : Params
  /-- `FactorySynth.master_amp`, where it is not 0 -/
  factoryMasterAmpRaw : Num64
  /-- `FactorySynth.layer_amp`, where it is not 0 -/
  factoryLayerAmpRaw : Num64
  /-- `FactorySynth.sel_layer` -/
  factorySelLayer : Fin 4
  /-- `FactorySynth.sel_bank` -/
  factorySelBank : Fin 4

/-- The parameters without a value in the model: not known, so a statement holds whatever they are. -/
opaque Config.open : OpenParams

/-- `MIDI_TO_A4` of the block that runs: not known, but a 7-bit key, the range 60_exceptions R261 gives it (log 7). -/
opaque Config.openA4 : Fin 128

end Sys2Proof
end

