-- ==== Sys2Proof/Machine/Num.lean ====
section
/-! DEFINITION. Arithmetic of the reference `Num`, IEEE 754 binary64, every operation the exact result rounded once to
nearest, ties to even (43_mixer R230, 92 D3), on the 64-bit word and computed with integers only, so that the kernel can
evaluate it. -/

namespace Sys2Proof

/-- A binary64 word taken apart: not a number, an infinity, or `(-1)^neg * mant * 2^exp`. -/
inductive NumVal where
  | nan
  | inf (neg : Bool)
  | fin (neg : Bool) (mant : Nat) (exp : Int)
deriving DecidableEq, Repr

/-- `2^n`, by parts whose exponents stay small, so that the elaborator evaluates it as the kernel does. -/
def pow2 (n : Nat) : Nat := (2 ^ 128) ^ (n / 128) * 2 ^ (n % 128)

/-- The one NaN the arithmetic produces. PRESUMED (log 2). -/
def Num64.nan : Num64 := 0x7FF8000000000000#64

/-- The infinity of a sign. -/
def Num64.inf (neg : Bool) : Num64 := if neg then 0xFFF0000000000000#64 else 0x7FF0000000000000#64

/-- The zero of a sign. -/
def Num64.zeroOf (neg : Bool) : Num64 := if neg then 0x8000000000000000#64 else 0#64

/-- `+0`. -/
def Num64.zero : Num64 := 0#64

/-- `1.0`. -/
def Num64.one : Num64 := 0x3FF0000000000000#64

/-- `-1.0`. -/
def Num64.negOne : Num64 := 0xBFF0000000000000#64

/-- The sign bit. -/
def Num64.neg (x : Num64) : Bool := x.msb

/-- The 63 bits below the sign: the magnitude, in the order of the values. -/
def Num64.mag (x : Num64) : Nat := x.toNat % 2 ^ 63

/-- Not a number: exponent field all ones, fraction not zero. -/
def Num64.isNaN (x : Num64) : Bool := decide (0x7FF0000000000000 < Num64.mag x)

/-- Neither infinite nor NaN. -/
def Num64.isFinite (x : Num64) : Bool := decide (Num64.mag x < 0x7FF0000000000000)

/-- The order key of a word: signed magnitude, so that `+0` and `-0` have one key (93 G5). -/
def Num64.key (x : Num64) : Int := if Num64.neg x then -(Num64.mag x : Int) else (Num64.mag x : Int)

/-- `x < y`; false where either is NaN. -/
def Num64.lt (x y : Num64) : Bool := !Num64.isNaN x && !Num64.isNaN y && decide (Num64.key x < Num64.key y)

/-- `x <= y`; false where either is NaN. -/
def Num64.le (x y : Num64) : Bool := !Num64.isNaN x && !Num64.isNaN y && decide (Num64.key x ≤ Num64.key y)

/-- The `Num` comparison `x = 0`: true of `+0` and `-0`, false of NaN (43_mixer R232, 93 G5). -/
def Num64.isZero (x : Num64) : Bool := decide (Num64.mag x = 0)

/-- The value of a word. -/
def Num64.val (x : Num64) : NumVal :=
  let e : Nat := Num64.mag x / 2 ^ 52
  let f : Nat := Num64.mag x % 2 ^ 52
  if e = 2047 then (if f = 0 then .inf (Num64.neg x) else .nan)
  else if e = 0 then .fin (Num64.neg x) f (-1074)
  else .fin (Num64.neg x) (2 ^ 52 + f) ((e : Int) - 1075)

/-- `m / 2^k` rounded to the nearest natural number, ties to even. -/
def Num64.roundShift (m k : Nat) : Nat :=
  let q := m / pow2 k
  let r := m % pow2 k
  if pow2 k < 2 * r ∨ (2 * r = pow2 k ∧ q % 2 = 1) then q + 1 else q

/-- The word nearest to `(-1)^neg * m * 2^e`, ties to even; an overflow is the infinity, an underflow a subnormal
or zero. Where `m` stands for a value that it does not hold whole, its lowest bit is sticky and it has at least 55
bits. -/
def Num64.round (neg : Bool) (m : Nat) (e : Int) : Num64 :=
  if m = 0 then Num64.zeroOf neg
  else
    let t : Int := max ((Nat.log2 m : Int) + e - 52) (-1074)
    let q : Nat := if t ≤ e then m * pow2 (e - t).toNat else Num64.roundShift m (t - e).toNat
    let bits : Nat := (t + 1074).toNat * 2 ^ 52 + q
    if 0x7FF0000000000000 ≤ bits then Num64.inf neg
    else BitVec.ofNat 64 ((if neg then 2 ^ 63 else 0) + bits)

/-- An integer converted to `Num` (10_state R40, 43_mixer R234). -/
def Num64.ofInt (i : Int) : Num64 := Num64.round (decide (i < 0)) i.natAbs 0

/-- A signed dyadic `s * 2^e` rounded; an exact zero is `+0`. -/
def Num64.roundInt (s : Int) (e : Int) : Num64 :=
  if s = 0 then Num64.zero else Num64.round (decide (s < 0)) s.natAbs e

/-- The integer `(-1)^neg * m`. -/
def Num64.signed (neg : Bool) (m : Nat) : Int := if neg then -(m : Int) else (m : Int)

/-- `x + y`. -/
def Num64.add (x y : Num64) : Num64 :=
  match Num64.val x, Num64.val y with
  | .nan, _ => Num64.nan
  | .inf _, .nan => Num64.nan
  | .fin _ _ _, .nan => Num64.nan
  | .inf a, .inf b => if a = b then Num64.inf a else Num64.nan
  | .inf a, .fin _ _ _ => Num64.inf a
  | .fin _ _ _, .inf b => Num64.inf b
  | .fin na ma ea, .fin nb mb eb =>
    if ma = 0 ∧ mb = 0 then Num64.zeroOf (na && nb)
    else
      let e := min ea eb
      Num64.roundInt (Num64.signed na (ma * pow2 (ea - e).toNat) + Num64.signed nb (mb * pow2 (eb - e).toNat)) e

/-- `-x`. -/
def Num64.negate (x : Num64) : Num64 := x ^^^ 0x8000000000000000#64

/-- `x - y`. -/
def Num64.sub (x y : Num64) : Num64 := Num64.add x (Num64.negate y)

/-- `x * y`. -/
def Num64.mul (x y : Num64) : Num64 :=
  match Num64.val x, Num64.val y with
  | .nan, _ => Num64.nan
  | .inf _, .nan => Num64.nan
  | .fin _ _ _, .nan => Num64.nan
  | .inf a, .inf b => Num64.inf (a != b)
  | .inf a, .fin b m _ => if m = 0 then Num64.nan else Num64.inf (a != b)
  | .fin a m _, .inf b => if m = 0 then Num64.nan else Num64.inf (a != b)
  | .fin a ma ea, .fin b mb eb => Num64.round (a != b) (ma * mb) (ea + eb)

/-- The quotient `ma / mb` as a number of at least 57 bits scaled by `2^-111`, its lowest bit sticky. -/
def Num64.quotient (ma mb : Nat) : Nat :=
  2 * (ma * 2 ^ 110 / mb) + (if ma * 2 ^ 110 % mb = 0 then 0 else 1)

/-- `x / y`. -/
def Num64.div (x y : Num64) : Num64 :=
  match Num64.val x, Num64.val y with
  | .nan, _ => Num64.nan
  | .inf _, .nan => Num64.nan
  | .fin _ _ _, .nan => Num64.nan
  | .inf _, .inf _ => Num64.nan
  | .inf a, .fin b _ _ => Num64.inf (a != b)
  | .fin a _ _, .inf b => Num64.zeroOf (a != b)
  | .fin a ma ea, .fin b mb eb =>
    if mb = 0 then (if ma = 0 then Num64.nan else Num64.inf (a != b))
    else Num64.round (a != b) (Num64.quotient ma mb) (ea - eb - 111)

/-- `trunc(x)`: a finite `Num` rounded toward zero to an `Int` (00_scope R7). Of an infinity or a NaN, which no rule
truncates, it answers 0. -/
def Num64.trunc (x : Num64) : Int :=
  match Num64.val x with
  | .nan => 0
  | .inf _ => 0
  | .fin neg m e => Num64.signed neg (if 0 ≤ e then m * pow2 e.toNat else m / pow2 (-e).toNat)

/-- `x = trunc(x)`: a finite `Num` that is an integer (30_encoding R101, OSC_OCTAVE). DEDUCED (log 17). -/
def Num64.isInteger (x : Num64) : Bool :=
  match Num64.val x with
  | .nan => false
  | .inf _ => false
  | .fin _ m e => decide (0 ≤ e) || decide (m % pow2 (-e).toNat = 0)

end Sys2Proof
end

