-- ==== Sys2Proof/Machine/Curves.lean ====
section
/-! DEFINITION. The two curves of the spec in the reference `Num`: `exp`, for the envelope times (41_actions R175), and
`n ^ e`, for the filter knob (40_decoder R135), each the real function of its operand rounded once (DEDUCED, log 3); and
NumType.binary64, the reference itself. The real values are computed in fixed point with `2^320` steps to one, far below
the last bit of a Num64. -/

namespace Sys2Proof

/-- One, in fixed point. -/
def Fix.one : Nat := pow2 320

/-- The fixed-point product of a non-negative pair. -/
def Fix.mul (a b : Nat) : Nat := a * b / Fix.one

/-- The sum of the exponential series from its term `k` on, `t` being the term before it. -/
def Fix.expSeries (r : Nat) : Nat → Nat → Nat → Nat
  | 0, _, _ => 0
  | fuel + 1, k, t =>
    let u := Fix.mul t r / (k + 1)
    u + Fix.expSeries r fuel (k + 1) u

/-- `a` squared `n` times. -/
def Fix.squares : Nat → Nat → Nat
  | 0, a => a
  | n + 1, a => Fix.squares n (Fix.mul a a)

/-- The exponential of a non-negative fixed-point number below 1024: that of its 4096th part, squared 12 times. -/
def Fix.exp (x : Nat) : Nat := Fix.squares 12 (Fix.one + Fix.expSeries (x / 4096) 64 0 Fix.one)

/-- The Num nearest to the exponential of the fixed-point number `(-1)^neg * x`. -/
def Fix.expNum (neg : Bool) (x : Nat) : Num64 :=
  if neg then Num64.round false (pow2 2400 / Fix.exp x) (-2080)
  else Num64.round false (Fix.exp x) (-320)

/-- The series of `2 * artanh` in the odd powers of `z`, from the power `k` on; `t` is `z^k`, `zz` is `z^2`. -/
def Fix.artanhSeries (zz : Nat) : Nat → Nat → Nat → Nat
  | 0, _, _ => 0
  | fuel + 1, k, t => 2 * t / k + Fix.artanhSeries zz fuel (k + 2) (Fix.mul t zz)

/-- `ln (p / q)` in fixed point, for `q ≤ p ≤ 2 q`. -/
def Fix.lnRatio (p q : Nat) : Nat :=
  let z := (p - q) * Fix.one / (p + q)
  Fix.artanhSeries (Fix.mul z z) 120 1 z

/-- `ln 2` in fixed point. -/
def Fix.ln2 : Nat := Fix.lnRatio 2 1

/-- `exp(x)`, rounded once. At `+0` and `-0` it is exactly 1. DESIGN CHOICE (log 3): the spec states no result for an
infinite or NaN operand, which an action from the bus can carry; the model answers the function's limits, `+inf` of `+inf`
and `+0` of `-inf`, and the NaN of log 2 of a NaN. A finite operand of magnitude 1024 or more overflows or underflows as
its rounding does. -/
def Num64.exp (x : Num64) : Num64 :=
  match Num64.val x with
  | .nan => Num64.nan
  | .inf neg => if neg then Num64.zero else Num64.inf false
  | .fin neg m e =>
    if m = 0 then Num64.one
    else if Num64.mag 0x4090000000000000#64 ≤ Num64.mag x then (if neg then Num64.zero else Num64.inf false)
    else Fix.expNum neg (if 0 ≤ e + 320 then m * pow2 (e + 320).toNat else m / pow2 (-(e + 320)).toNat)

/-- Euler's number in Num: `exp(1)` (00_scope R7). -/
def Num64.e : Num64 := 0x4005BF0A8B145769#64

/-- `n ^ e` for a Num `n` in `[0, 1]` (40_decoder R135): 0 at 0, exactly 1 at 1, and in between
`exp(e * ln n)` rounded once, `e` being the Num of Euler's number. The decoder passes only `v / 127`;
outside `[0, 1]` it answers NaN (DESIGN CHOICE, log 3: no rule reaches it there). -/
def Num64.powE (n : Num64) : Num64 :=
  match Num64.val n with
  | .nan => Num64.nan
  | .inf _ => Num64.nan
  | .fin neg m ex =>
    if m = 0 then Num64.zero
    else if neg then Num64.nan
    else if Num64.lt Num64.one n then Num64.nan
    else
      -- n = (m / 2^L) * 2^(L + ex) with L = log2 m, so -ln n = -(L + ex) * ln 2 - ln (m / 2^L)
      let l := Nat.log2 m
      let k := (-((l : Int) + ex)).toNat
      let nln := k * Fix.ln2 - Fix.lnRatio m (pow2 l)
      -- e = 6121026514868073 * 2^-51
      Fix.expNum true (nln * 6121026514868073 / 2 ^ 51)

/-- The reference numeric type: IEEE 754 binary64 (00_scope R6, 92 D3). -/
def NumType.binary64 : NumType where
  ofInt := Num64.ofInt
  ofRatio p q := Num64.div (Num64.ofInt p) (Num64.ofInt q)
  add := Num64.add
  sub := Num64.sub
  mul := Num64.mul
  div := Num64.div
  lt := Num64.lt
  le := Num64.le
  isNaN := Num64.isNaN
  isFinite := Num64.isFinite
  isZero := Num64.isZero
  isInteger := Num64.isInteger
  trunc := Num64.trunc
  exp := Num64.exp
  powE := Num64.powE
  lt_notNaN x y h := by simp_all [Num64.lt]
  lt_irrefl x := by simp [Num64.lt]
  le_of_lt x y h := by
    simp only [Num64.lt, Num64.le, Bool.and_eq_true, decide_eq_true_eq] at h ⊢
    exact ⟨h.1, h.2.le⟩
  le_of_not_lt x y hx hy h := by
    simp only [Num64.lt, hx, hy, Bool.not_false, Bool.and_self, Bool.true_and, decide_eq_false_iff_not, not_lt] at h
    simp [Num64.le, hx, hy, h]
  minus_one_lt_one := by decide
  zero_lt_twenty := by decide
  hundred_lt_twenty_thousand := by decide
  twenty_finite := by decide
  twenty_thousand_finite := by decide
  one_not_zero := by decide
  one_integer := by decide
  minus_one_integer := by decide

end Sys2Proof
end

