-- ==== Sys2Proof/Machine/Parameters.lean ====
section
/-! DEFINITION. The parameters of 00_scope R6 as the rules read them out of a Config, each within the bound R6, 70_reset R292
or the numeric type gives it. A check that a width parameter decides is first answered at the least width the spec admits,
so that ordinary values need no knowledge of the parameter. -/

namespace Sys2Proof

/-! ## Num -/

/-- 0. -/
def NumType.zero (n : NumType) : Num64 := n.ofInt 0

/-- 1. -/
def NumType.one (n : NumType) : Num64 := n.ofInt 1

/-- -1. -/
def NumType.negOne (n : NumType) : Num64 := n.ofInt (-1)

/-- `lo <= x <= hi`. -/
def NumType.within (n : NumType) (lo hi x : Num64) : Bool := n.le lo x && n.le x hi

/-- `clamp(x, lo, hi)` of an `x` that is no NaN (00_scope R7, 43_mixer R241). -/
def NumType.clamp (n : NumType) (lo hi x : Num64) : Num64 := if n.lt x lo then lo else if n.lt hi x then hi else x

/-- `env_time(v) = (exp(v * 2.85) - 1) / 2 * 500` milliseconds, evaluated in Num in that order (41_actions R175). -/
def NumType.envTime (n : NumType) (v : Num64) : Num64 :=
  n.mul (n.div (n.sub (n.exp (n.mul v (n.ofRatio 285 100))) n.one) (n.ofInt 2)) (n.ofInt 500)

/-! ## Sizes, widths and bounds -/

/-- `MIN_CUTOFF`: 100 (R6). -/
def Config.minCutoff (c : Config) : Num64 := c.num.ofInt 100

/-- `MIDI_TO_A4`, the absolute note code of A4 (R6). -/
def Config.a4 (c : Config) : Int := c.midiToA4

/-- `BUFFER_SAMPLES`, at least 1 (R6). -/
def Config.bufferSamples (c : Config) : Nat := c.bufferSamplesLess1 + 1

/-- `SAMPLE_RATE`, at least 1 (R6). -/
def Config.sampleRate (c : Config) : Nat := c.sampleRateLess1 + 1

/-- The audio a tick lasts, in seconds: `BUFFER_SAMPLES / SAMPLE_RATE` (60_exceptions R270). No rule depends on it. -/
def Config.tickSeconds (c : Config) : Rat := (c.bufferSamples : Rat) / (c.sampleRate : Rat)

/-- `MAX_RECORDING`, at least 1 (R6). -/
def Config.maxRecording (c : Config) : Nat := c.maxRecordingLess1 + 1

/-- A parameter that is finite and above a bound (R6, 60_exceptions R275; log 7); a raw value that is not stands for
another. -/
def NumType.finiteAbove (n : NumType) (bound fallback raw : Num64) : Num64 :=
  if n.lt bound raw && n.isFinite raw then raw else fallback

/-- `MAX_CUTOFF`, finite and above 100 (R6, 60_exceptions R275); a raw value out of bounds stands for 20000. -/
def OpenParams.maxCutoff (n : NumType) (o : OpenParams) : Num64 :=
  n.finiteAbove (n.ofInt 100) (n.ofInt 20000) o.maxCutoffRaw

/-- `MAX_CUTOFF` (R6). -/
def Config.maxCutoff (c : Config) : Num64 := c.toOpenParams.maxCutoff c.num

/-- `LFO_SPEED_MAX_HZ`, finite and above 0 (R6, 60_exceptions R275); a raw value out of bounds stands for 20. -/
def Config.lfoSpeedMax (c : Config) : Num64 := c.num.finiteAbove c.num.zero (c.num.ofInt 20) c.lfoSpeedMaxRaw

/-- A counter value fits `TS_BITS` bits: `n < 2^TS_BITS` (42_recorder R212). -/
def Config.tsFits (c : Config) (n : Nat) : Bool :=
  decide (n < 2 ^ 32) ||
    match c.tsBitsLess32 with
    | none => true
    | some x => decide (n < 2 ^ (32 + x))

/-- An integer fits `8 + x` signed bits. -/
def fitsSigned (x : Nat) (i : Int) : Bool := decide (-(2 ^ (7 + x)) ≤ i ∧ i < 2 ^ (7 + x))

/-- A param fits the `PARAM_BITS` signed bits of the action bus (10_state R61). -/
def Config.paramFits (c : Config) (p : Int) : Bool := fitsSigned 0 p || fitsSigned c.paramBitsLess8 p

/-- An octave fits `OCT_BITS` signed bits (41_actions R169). -/
def Config.octFits (c : Config) (o : Int) : Bool :=
  fitsSigned 0 o ||
    match c.octBitsLess8 with
    | none => true
    | some x => fitsSigned x o

/-! ## Free values -/

/-- What a NaN sample is clamped to: any value in `[-1, 1]` (43_mixer R241, 93 X17; log 10). -/
def Config.nanSample (c : Config) (draw i : Nat) : Num64 :=
  if c.num.within c.num.negOne c.num.one (c.nanSampleRaw draw i) then c.nanSampleRaw draw i else c.num.one

/-- What a NaN cutoff is clamped to: any value in `[MIN_CUTOFF, MAX_CUTOFF]` (10_state R41, 60_exceptions R275; log 10). -/
def Config.nanCutoff (c : Config) (draw : Nat) : Num64 :=
  if c.num.within c.minCutoff c.maxCutoff (c.nanCutoffRaw draw) then c.nanCutoffRaw draw else c.minCutoff

/-! ## The parameter block -/

/-- `B.pitch = octave * 12 + steps + cents`, the product exact in `Int` (10_state R40). -/
def Config.pitch (c : Config) (P : Params) : Num64 := c.num.add (c.num.add (c.num.ofInt (P.octave * 12)) P.steps) P.cents

/-- A gain that is not 0 (70_reset R292); a raw value of 0 stands for 1. -/
def Config.nonzeroGain (c : Config) (x : Num64) : Num64 := if c.num.isZero x then c.num.one else x

/-- `FactoryBank` (70_reset R292), with its constraints: the amp sustain not 0, the cutoff in its interval, and an octave that
its register holds; a raw cutoff out of bounds stands for `MAX_CUTOFF`, a raw octave that does not fit for 0. -/
def Config.factoryBank (c : Config) : Params :=
  { c.factoryBankRaw with
    octave := if c.octFits c.factoryBankRaw.octave then c.factoryBankRaw.octave else 0
    cutoffHz :=
      if c.num.within c.minCutoff c.maxCutoff c.factoryBankRaw.cutoffHz then c.factoryBankRaw.cutoffHz else c.maxCutoff
    envAmp := { c.factoryBankRaw.envAmp with sustain := c.nonzeroGain c.factoryBankRaw.envAmp.sustain } }

/-- `FactorySynth.master_amp`, not 0 (R292). -/
def Config.factoryMasterAmp (c : Config) : Num64 := c.nonzeroGain c.factoryMasterAmpRaw

/-- `FactorySynth.layer_amp`, not 0 (R292). -/
def Config.factoryLayerAmp (c : Config) : Num64 := c.nonzeroGain c.factoryLayerAmpRaw

end Sys2Proof
end

