-- ==== Sys2Proof/Machine/Reference.lean ====
section
/-! DEFINITION. The references the spec gives for the parameters it leaves open: the decode table (30_encoding R96, R97), the
PCM conversion (43_mixer R242) and the factory defaults (70_reset R292), beside NumType.binary64 (Machine/Curves.lean); and
Config.chip, the parameters of the block that runs. -/

namespace Sys2Proof

/-! ## The message word -/

/-- The bytes of a word: `b0` is `W[23:16]`, `b1` is `W[15:8]`, `b2` is `W[7:0]` (10_state R60). -/
def wordB0 (w : MsgWord) : Byte := w.extractLsb' 16 8

/-- `W[15:8]`. -/
def wordB1 (w : MsgWord) : Byte := w.extractLsb' 8 8

/-- `W[7:0]`. -/
def wordB2 (w : MsgWord) : Byte := w.extractLsb' 0 8

/-- The word of a message: `W = b0 ++ b1 ++ b2` (10_state R60, 20_memory R79). -/
def wordOf (b0 b1 b2 : Byte) : MsgWord := b0 ++ b1 ++ b2

/-- The channel nibble, `W[19:16]` (30_encoding R91). -/
def fieldCh (w : MsgWord) : BitVec 4 := w.extractLsb' 16 4

/-- `b1[6:0]`, `W[14:8]`: key, controller number or low bend bits. -/
def fieldK (w : MsgWord) : BitVec 7 := w.extractLsb' 8 7

/-- `b2[6:0]`, `W[6:0]`: velocity, controller value or high bend bits. -/
def fieldV (w : MsgWord) : BitVec 7 := w.extractLsb' 0 7

/-- The low two bits of the controller number, `W[9:8]`: the controller less its row's base. -/
def fieldIdx (w : MsgWord) : BitVec 2 := w.extractLsb' 8 2

/-! ## The reference DecodeTable -/

/-- The note and pitch-bend rows (30_encoding R96). -/
def noteRows : List DecodeRow := [
  ⟨"NOTE_ON", 0x900000#24, 0xF08080#24, .ne 0,
    fun w => .noteOn (fieldCh w) (fieldK w) (fieldV w)⟩,
  ⟨"NOTE_ON_ZERO", 0x900000#24, 0xF080FF#24, .eq 0,
    fun w => .noteOnZero (fieldCh w) (fieldK w)⟩,
  ⟨"NOTE_OFF", 0x800000#24, 0xF08080#24, .any,
    fun w => .noteOff (fieldCh w) (fieldK w) (fieldV w)⟩,
  ⟨"BEND_CENTRE", 0xE00040#24, 0xF080FF#24, .eq 64,
    fun w => .bendCentre (fieldCh w) (fieldK w)⟩,
  ⟨"BEND", 0xE00000#24, 0xF08080#24, .ne 64,
    fun w => .bend (fieldCh w) (fieldK w) (fieldV w)⟩]

/-- The control-change rows of the Synth and Layer controls (30_encoding R97). -/
def layerRows : List DecodeRow := [
  ⟨"CC_MASTER_VOL", 0xB00700#24, 0xF0FF80#24, .any,
    fun w => .ccMasterVol (fieldCh w) (fieldV w)⟩,
  ⟨"CC_LAYER_SELECT", 0xB01000#24, 0xF0FC80#24, .ne 0,
    fun w => .ccLayerSelect (fieldCh w) (fieldIdx w) (fieldV w)⟩,
  ⟨"CC_LAYER_AMP", 0xB01400#24, 0xF0FC80#24, .any,
    fun w => .ccLayerAmp (fieldCh w) (fieldIdx w) (fieldV w)⟩,
  ⟨"CC_LAYER_REC_STOP", 0xB01800#24, 0xF0FF80#24, .ne 0,
    fun w => .ccLayerRecStop (fieldCh w) (fieldV w)⟩,
  ⟨"CC_LAYER_REC_PAUSE", 0xB01900#24, 0xF0FF80#24, .ne 0,
    fun w => .ccLayerRecPause (fieldCh w) (fieldV w)⟩,
  ⟨"CC_LAYER_REC_RECORD", 0xB01A00#24, 0xF0FF80#24, .ne 0,
    fun w => .ccLayerRecRecord (fieldCh w) (fieldV w)⟩,
  ⟨"CC_POWER", 0xB01B00#24, 0xF0FF80#24, .ne 0,
    fun w => .ccPower (fieldCh w) (fieldV w)⟩,
  ⟨"CC_OSC_SELECT", 0xB02000#24, 0xF0FC80#24, .ne 0,
    fun w => .ccOscSelect (fieldCh w) (fieldIdx w) (fieldV w)⟩,
  ⟨"CC_OSC_MUTE", 0xB02400#24, 0xF0FC80#24, .ne 0,
    fun w => .ccOscMute (fieldCh w) (fieldIdx w) (fieldV w)⟩,
  ⟨"CC_OSC_AMP", 0xB02800#24, 0xF0FC80#24, .any,
    fun w => .ccOscAmp (fieldCh w) (fieldIdx w) (fieldV w)⟩]

/-- The control-change rows of the Bank controls (30_encoding R97). -/
def bankRows : List DecodeRow := [
  ⟨"CC_OSC_TYPE", 0xB02C00#24, 0xF0FF80#24, .ne 0,
    fun w => .ccOscType (fieldCh w) (fieldV w)⟩,
  ⟨"CC_OCTAVE_DOWN", 0xB02D00#24, 0xF0FF80#24, .ne 0,
    fun w => .ccOctaveDown (fieldCh w) (fieldV w)⟩,
  ⟨"CC_OCTAVE_UP", 0xB02E00#24, 0xF0FF80#24, .ne 0,
    fun w => .ccOctaveUp (fieldCh w) (fieldV w)⟩,
  ⟨"CC_MOD_AMP", 0xB03000#24, 0xF0FF80#24, .ne 0,
    fun w => .ccModAmp (fieldCh w) (fieldV w)⟩,
  ⟨"CC_MOD_PITCH", 0xB03100#24, 0xF0FF80#24, .ne 0,
    fun w => .ccModPitch (fieldCh w) (fieldV w)⟩,
  ⟨"CC_MOD_FILTER", 0xB03200#24, 0xF0FF80#24, .ne 0,
    fun w => .ccModFilter (fieldCh w) (fieldV w)⟩,
  ⟨"CC_ENVELOPE", 0xB03400#24, 0xF0FC80#24, .any,
    fun w => .ccEnvelope (fieldCh w) (fieldIdx w) (fieldV w)⟩,
  ⟨"CC_LFO_SPEED", 0xB03800#24, 0xF0FF80#24, .any,
    fun w => .ccLfoSpeed (fieldCh w) (fieldV w)⟩,
  ⟨"CC_LFO_AMP", 0xB03900#24, 0xF0FF80#24, .any,
    fun w => .ccLfoAmp (fieldCh w) (fieldV w)⟩,
  ⟨"CC_FILTER_CUTOFF", 0xB04A00#24, 0xF0FF80#24, .any,
    fun w => .ccFilterCutoff (fieldCh w) (fieldV w)⟩]

/-- The reference `DecodeTable` (30_encoding R94 to R97), in its order. -/
def referenceTable : List DecodeRow := noteRows ++ layerRows ++ bankRows

/-! ## The other references -/

/-- The reference PCM_QUANT, `trunc(y * 32767)` as a 16-bit two's-complement integer (43_mixer R242, 20_memory R80). -/
def pcmReference (n : NumType) (y : Num64) : BitVec 16 := BitVec.ofInt 16 (n.trunc (n.mul y (n.ofInt 32767)))

/-- An envelope whose four fields are 0, but for its sustain. -/
def flatEnvelope (n : NumType) (sustain : Num64) : Envelope where
  attackMs := n.zero
  decayMs := n.zero
  sustain := sustain
  releaseMs := n.zero

/-- The reference FactoryBank (70_reset R292), for a `MAX_CUTOFF`. -/
def factoryReference (n : NumType) (maxCutoff : Num64) : Params where
  waveform := 0
  amplitude := n.one
  octave := 0
  steps := n.zero
  cents := n.zero
  cutoffHz := maxCutoff
  envAmp := flatEnvelope n n.one
  envPitch := flatEnvelope n n.zero
  envFilter := flatEnvelope n n.zero
  lfoAmp := { speedHz := n.zero, amplitude := n.zero }
  lfoPitch := { speedHz := n.zero, amplitude := n.zero }
  modTarget := .amp

/-- Open parameters completed by the references. -/
def Config.ofOpen (o : OpenParams) (a4 : Int) : Config where
  toOpenParams := o
  num := NumType.binary64
  decodeTable := referenceTable
  pcmQuant := pcmReference NumType.binary64
  midiToA4 := a4
  factoryBankRaw := factoryReference NumType.binary64 (o.maxCutoff NumType.binary64)
  factoryMasterAmpRaw := Num64.one
  factoryLayerAmpRaw := Num64.one
  factorySelLayer := 0
  factorySelBank := 0

/-- The parameters of the block that runs. DESIGN CHOICE: `Num`, `DecodeTable`, `PCM_QUANT`, `FactoryBank` and
`FactorySynth` are the spec's references (log 1, log 4, log 5, log 6); every other one is open (log 7). -/
def Config.chip : Config := Config.ofOpen Config.open (Config.openA4.val : Int)

end Sys2Proof
end

