-- ==== Sys2Proof/WellFormed.lean ====
section
/-! DEFINITION. Well-formed instructions: the ones a transaction can carry. A message row's operands meet the row's
condition on `b2` (30_encoding R96, R97); the word of NO_MATCH is one that 30_encoding R98 lists; the param of an action
fits the bus (10_state R61). Whether an ACTION is well formed (30_encoding R101) is no matter of encoding: the Router
checks it when it applies the action (41_actions R150), Machine/Operands.lean. -/

namespace Sys2Proof

/-- A controller number of 30_encoding R97 that has a row, with whether the row is a button row. -/
def controllerRow (c : Nat) : Option Bool :=
  if c = 0x07 then some false
  else if 0x10 ≤ c ∧ c ≤ 0x13 then some true
  else if 0x14 ≤ c ∧ c ≤ 0x17 then some false
  else if 0x18 ≤ c ∧ c ≤ 0x1B then some true
  else if 0x20 ≤ c ∧ c ≤ 0x27 then some true
  else if 0x28 ≤ c ∧ c ≤ 0x2B then some false
  else if 0x2C ≤ c ∧ c ≤ 0x2E then some true
  else if 0x30 ≤ c ∧ c ≤ 0x32 then some true
  else if 0x34 ≤ c ∧ c ≤ 0x39 then some false
  else if c = 0x4A then some false
  else none

/-- A word that some row of 30_encoding R96 or R97 matches, written from the list of 30_encoding R98, not from the table:
both data bytes below 0x80; a note off, note on or pitch bend status; or a control change whose controller has a row and,
where that is a button row, whose value is not 0. -/
def recognized (w : MsgWord) : Bool :=
  let b1 := (w.toNat / 0x100) % 0x100
  let b2 := w.toNat % 0x100
  let status := w.toNat / 0x100000
  decide (b1 < 0x80) && decide (b2 < 0x80) &&
    (decide (status = 0x8) || decide (status = 0x9) || decide (status = 0xE) ||
      (decide (status = 0xB) &&
        match controllerRow b1 with
        | none => false
        | some button => !button || decide (b2 ≠ 0)))

/-- The instruction is one that a transaction can carry. -/
def Instr.wf (i : Instr) : Bool :=
  match i with
  | .noteOn _ _ v => decide (v ≠ 0)
  | .noteOnZero _ _ => true
  | .noteOff _ _ _ => true
  | .bendCentre _ _ => true
  | .bend _ _ v => decide (v ≠ 64)
  | .ccMasterVol _ _ => true
  | .ccLayerSelect _ _ v => decide (v ≠ 0)
  | .ccLayerAmp _ _ _ => true
  | .ccLayerRecStop _ v => decide (v ≠ 0)
  | .ccLayerRecPause _ v => decide (v ≠ 0)
  | .ccLayerRecRecord _ v => decide (v ≠ 0)
  | .ccPower _ v => decide (v ≠ 0)
  | .ccOscSelect _ _ v => decide (v ≠ 0)
  | .ccOscMute _ _ v => decide (v ≠ 0)
  | .ccOscAmp _ _ _ => true
  | .ccOscType _ v => decide (v ≠ 0)
  | .ccOctaveDown _ v => decide (v ≠ 0)
  | .ccOctaveUp _ v => decide (v ≠ 0)
  | .ccModAmp _ v => decide (v ≠ 0)
  | .ccModPitch _ v => decide (v ≠ 0)
  | .ccModFilter _ v => decide (v ≠ 0)
  | .ccEnvelope _ _ _ => true
  | .ccLfoSpeed _ _ => true
  | .ccLfoAmp _ _ => true
  | .ccFilterCutoff _ _ => true
  | .noMatch w => !recognized w
  | .buf => true
  | .actMasterVol p _ => Config.chip.paramFits p
  | .actAddNote p _ => Config.chip.paramFits p
  | .actRemoveNote p _ => Config.chip.paramFits p
  | .actLayerSelect p _ => Config.chip.paramFits p
  | .actLayerAmp p _ => Config.chip.paramFits p
  | .actLayerRecStop _ => true
  | .actLayerRecPause _ => true
  | .actLayerRecRecord _ => true
  | .actOscSelect p _ => Config.chip.paramFits p
  | .actOscMute p _ => Config.chip.paramFits p
  | .actOscAmp p _ => Config.chip.paramFits p
  | .actOscType p _ => Config.chip.paramFits p
  | .actOscOctave p _ => Config.chip.paramFits p
  | .actOscPitch p _ => Config.chip.paramFits p
  | .actModSelect p _ => Config.chip.paramFits p
  | .actEnvelope p _ => Config.chip.paramFits p
  | .actLfo p _ => Config.chip.paramFits p
  | .actFilterCutoff p _ => Config.chip.paramFits p
  | .actPower p _ => Config.chip.paramFits p
  | .actUnison p _ => Config.chip.paramFits p
  | .actReserved18 p _ => Config.chip.paramFits p
  | .actReserved19 p _ => Config.chip.paramFits p
  | .actReserved20 p _ => Config.chip.paramFits p
  | .actReserved21 p _ => Config.chip.paramFits p
  | .actReserved22 p _ => Config.chip.paramFits p
  | .actReserved23 p _ => Config.chip.paramFits p
  | .actReserved24 p _ => Config.chip.paramFits p
  | .actReserved25 p _ => Config.chip.paramFits p
  | .actReserved26 p _ => Config.chip.paramFits p
  | .actReserved27 p _ => Config.chip.paramFits p
  | .actReserved28 p _ => Config.chip.paramFits p
  | .actReserved29 p _ => Config.chip.paramFits p
  | .actReserved30 p _ => Config.chip.paramFits p
  | .actReserved31 p _ => Config.chip.paramFits p

end Sys2Proof
end

