-- ==== Sys2Proof/Decode.lean ====
section
/-! DEFINITION. The decoder, by any DecodeTable (40_decoder R110) and by the block's own, the decoding of a transaction, and
the encoder. -/

namespace Sys2Proof

/-- The condition holds of a byte. -/
def Cond.holds (c : Cond) (b2 : Byte) : Bool :=
  match c with
  | .any => true
  | .ne n => b2 != n
  | .eq n => b2 == n

/-- A row matches a word when `(W & mask) = match` and its condition holds (30_encoding R94). -/
def DecodeRow.matches (r : DecodeRow) (w : MsgWord) : Bool := (w &&& r.mask) == r.pattern && r.cond.holds (wordB2 w)

/-- The decoding of a message word by a table: the first row that matches, or NO_MATCH (30_encoding R94, 40_decoder R110,
R136). Total. -/
def decodeWith (table : List DecodeRow) (w : MsgWord) : Instr :=
  match table.find? (fun r => r.matches w) with
  | some r => r.build w
  | none => .noMatch w

/-- The decoding of a message word by the block's table (40_decoder R110). -/
def decodeWord (w : MsgWord) : Instr := decodeWith Config.chip.decodeTable w

/-- Why a transaction is no instruction. -/
inductive DecodeError where
  /-- an action of code 5 (LAYER_REC) whose param is none of 0, 1, 2, the buttons that have a row (30_encoding R101) -/
  | layerRecParam
  /-- a param outside the `PARAM_BITS` signed bits of the bus (10_state R61) -/
  | paramWidth
deriving DecidableEq, Repr

/-- The instruction of an action on the internal bus, by its code number (30_encoding R100): a row of the ACTION format.
The rows of code 5 also fix the param. Total on the 32 codes. -/
def decodeBus (c : Config) (code : BitVec 5) (param : Int) (value : Num64) : Except DecodeError Instr :=
  if !c.paramFits param then .error .paramWidth
  else match code.toNat with
  | 0 => .ok (.actMasterVol param value)
  | 1 => .ok (.actAddNote param value)
  | 2 => .ok (.actRemoveNote param value)
  | 3 => .ok (.actLayerSelect param value)
  | 4 => .ok (.actLayerAmp param value)
  | 5 =>
    if param = 0 then .ok (.actLayerRecStop value)
    else if param = 1 then .ok (.actLayerRecPause value)
    else if param = 2 then .ok (.actLayerRecRecord value)
    else .error .layerRecParam
  | 6 => .ok (.actOscSelect param value)
  | 7 => .ok (.actOscMute param value)
  | 8 => .ok (.actOscAmp param value)
  | 9 => .ok (.actOscType param value)
  | 10 => .ok (.actOscOctave param value)
  | 11 => .ok (.actOscPitch param value)
  | 12 => .ok (.actModSelect param value)
  | 13 => .ok (.actEnvelope param value)
  | 14 => .ok (.actLfo param value)
  | 15 => .ok (.actFilterCutoff param value)
  | 16 => .ok (.actPower param value)
  | 17 => .ok (.actUnison param value)
  | 18 => .ok (.actReserved18 param value)
  | 19 => .ok (.actReserved19 param value)
  | 20 => .ok (.actReserved20 param value)
  | 21 => .ok (.actReserved21 param value)
  | 22 => .ok (.actReserved22 param value)
  | 23 => .ok (.actReserved23 param value)
  | 24 => .ok (.actReserved24 param value)
  | 25 => .ok (.actReserved25 param value)
  | 26 => .ok (.actReserved26 param value)
  | 27 => .ok (.actReserved27 param value)
  | 28 => .ok (.actReserved28 param value)
  | 29 => .ok (.actReserved29 param value)
  | 30 => .ok (.actReserved30 param value)
  | _ => .ok (.actReserved31 param value)

/-- The instruction of a transaction, under parameters `c`. Total: a message always is one, a request always is, an action
that is none is rejected by name. -/
def decodeTxnWith (c : Config) (t : Txn) : Except DecodeError Instr :=
  match t with
  | .midi b0 b1 b2 => .ok (decodeWith c.decodeTable (wordOf b0 b1 b2))
  | .buf => .ok .buf
  | .bus code param value => decodeBus c code param value

/-- The instruction of a transaction at the block. -/
def decodeTxn (t : Txn) : Except DecodeError Instr := decodeTxnWith Config.chip t

/-- A message of status type `st` on channel `ch`, with the 7-bit data fields `k` and `v` (30_encoding R91). -/
def message (st ch : BitVec 4) (k v : BitVec 7) : Txn := .midi (st ++ ch) (0#1 ++ k) (0#1 ++ v)

/-- A control change of one controller. -/
def controlChange (ch : BitVec 4) (c v : BitVec 7) : Txn := message 0xB#4 ch c v

/-- A control change of a group of four controllers: the group's five high bits, then the index. -/
def controlChange4 (ch : BitVec 4) (group : BitVec 5) (idx : BitVec 2) (v : BitVec 7) : Txn :=
  message 0xB#4 ch (group ++ idx) v

/-- The transaction that carries an instruction: its words, from 30_encoding R91, R96, R97 and R100. -/
def encode (i : Instr) : Txn :=
  match i with
  | .noteOn ch k v => message 0x9#4 ch k v
  | .noteOnZero ch k => message 0x9#4 ch k 0#7
  | .noteOff ch k v => message 0x8#4 ch k v
  | .bendCentre ch l => message 0xE#4 ch l 64#7
  | .bend ch l v => message 0xE#4 ch l v
  | .ccMasterVol ch v => controlChange ch 0x07#7 v
  | .ccLayerSelect ch idx v => controlChange4 ch 0x04#5 idx v
  | .ccLayerAmp ch idx v => controlChange4 ch 0x05#5 idx v
  | .ccLayerRecStop ch v => controlChange ch 0x18#7 v
  | .ccLayerRecPause ch v => controlChange ch 0x19#7 v
  | .ccLayerRecRecord ch v => controlChange ch 0x1A#7 v
  | .ccPower ch v => controlChange ch 0x1B#7 v
  | .ccOscSelect ch idx v => controlChange4 ch 0x08#5 idx v
  | .ccOscMute ch idx v => controlChange4 ch 0x09#5 idx v
  | .ccOscAmp ch idx v => controlChange4 ch 0x0A#5 idx v
  | .ccOscType ch v => controlChange ch 0x2C#7 v
  | .ccOctaveDown ch v => controlChange ch 0x2D#7 v
  | .ccOctaveUp ch v => controlChange ch 0x2E#7 v
  | .ccModAmp ch v => controlChange ch 0x30#7 v
  | .ccModPitch ch v => controlChange ch 0x31#7 v
  | .ccModFilter ch v => controlChange ch 0x32#7 v
  | .ccEnvelope ch idx v => controlChange4 ch 0x0D#5 idx v
  | .ccLfoSpeed ch v => controlChange ch 0x38#7 v
  | .ccLfoAmp ch v => controlChange ch 0x39#7 v
  | .ccFilterCutoff ch v => controlChange ch 0x4A#7 v
  | .noMatch w => .midi (wordB0 w) (wordB1 w) (wordB2 w)
  | .buf => .buf
  | .actMasterVol param value => .bus 0#5 param value
  | .actAddNote param value => .bus 1#5 param value
  | .actRemoveNote param value => .bus 2#5 param value
  | .actLayerSelect param value => .bus 3#5 param value
  | .actLayerAmp param value => .bus 4#5 param value
  | .actLayerRecStop value => .bus 5#5 0 value
  | .actLayerRecPause value => .bus 5#5 1 value
  | .actLayerRecRecord value => .bus 5#5 2 value
  | .actOscSelect param value => .bus 6#5 param value
  | .actOscMute param value => .bus 7#5 param value
  | .actOscAmp param value => .bus 8#5 param value
  | .actOscType param value => .bus 9#5 param value
  | .actOscOctave param value => .bus 10#5 param value
  | .actOscPitch param value => .bus 11#5 param value
  | .actModSelect param value => .bus 12#5 param value
  | .actEnvelope param value => .bus 13#5 param value
  | .actLfo param value => .bus 14#5 param value
  | .actFilterCutoff param value => .bus 15#5 param value
  | .actPower param value => .bus 16#5 param value
  | .actUnison param value => .bus 17#5 param value
  | .actReserved18 param value => .bus 18#5 param value
  | .actReserved19 param value => .bus 19#5 param value
  | .actReserved20 param value => .bus 20#5 param value
  | .actReserved21 param value => .bus 21#5 param value
  | .actReserved22 param value => .bus 22#5 param value
  | .actReserved23 param value => .bus 23#5 param value
  | .actReserved24 param value => .bus 24#5 param value
  | .actReserved25 param value => .bus 25#5 param value
  | .actReserved26 param value => .bus 26#5 param value
  | .actReserved27 param value => .bus 27#5 param value
  | .actReserved28 param value => .bus 28#5 param value
  | .actReserved29 param value => .bus 29#5 param value
  | .actReserved30 param value => .bus 30#5 param value
  | .actReserved31 param value => .bus 31#5 param value

/-- The transaction of a row of spec/opcode_table.json whose bits are `w`, as that table numbers them: the 24 bits of a
message word, the byte that holds the 5-bit code of an action (its param and its value, which have no bits there, are 0),
or the row BUF, which has no bits (log 11). -/
def tableTxn (nbits w : Nat) : Option Txn :=
  if nbits = 24 then
    let m : MsgWord := BitVec.ofNat 24 w
    some (.midi (wordB0 m) (wordB1 m) (wordB2 m))
  else if nbits = 8 then some (.bus (BitVec.ofNat 5 w) 0 0#64)
  else if nbits = 0 then some .buf
  else none

/-- The instruction the decoder reads from such a row. -/
def decodeTableWord (nbits w : Nat) : Option Instr :=
  match tableTxn nbits w with
  | none => none
  | some t =>
    match decodeTxn t with
    | .error _ => none
    | .ok i => some i

end Sys2Proof
end

