-- ==== Sys2Proof/Machine/Stores.lean ====
section
/-! DEFINITION. The shapes of the block's stores (20_memory R76): four like things, and a partial map, a list of key and
value pairs in one canonical form, the keys strictly rising, so that equal maps are equal lists. -/

namespace Sys2Proof

/-- Four like things, indexed 0 to 3: the Layers of the Synth, the Banks and mute flags of a Layer (00_scope R3). -/
structure Quad (α : Type) where
  e0 : α
  e1 : α
  e2 : α
  e3 : α
deriving DecidableEq, Repr

/-- Four times the same thing. -/
def Quad.all {α : Type} (a : α) : Quad α := ⟨a, a, a, a⟩

/-- The element at an index. -/
def Quad.get {α : Type} (q : Quad α) (i : Fin 4) : α :=
  match i with
  | 0 => q.e0
  | 1 => q.e1
  | 2 => q.e2
  | 3 => q.e3

/-- The element at an index replaced. -/
def Quad.set {α : Type} (q : Quad α) (i : Fin 4) (a : α) : Quad α :=
  match i with
  | 0 => { q with e0 := a }
  | 1 => { q with e1 := a }
  | 2 => { q with e2 := a }
  | 3 => { q with e3 := a }

/-- Every element through a function. -/
def Quad.map {α β : Type} (f : α → β) (q : Quad α) : Quad β := ⟨f q.e0, f q.e1, f q.e2, f q.e3⟩

/-- The keys of a map strictly rise. -/
def KMap.wf {κ β : Type} [LinearOrder κ] : List (κ × β) → Bool
  | [] => true
  | [_] => true
  | p :: q :: rest => decide (p.1 < q.1) && KMap.wf (q :: rest)

/-- `m.get(k)` (00_scope R8). -/
def KMap.get {κ β : Type} [LinearOrder κ] (m : List (κ × β)) (k : κ) : Option β :=
  match m with
  | [] => none
  | p :: rest => if p.1 = k then some p.2 else KMap.get rest k

/-- `m.put(k, v)`: adds or overwrites (00_scope R8). -/
def KMap.put {κ β : Type} [LinearOrder κ] (m : List (κ × β)) (k : κ) (v : β) : List (κ × β) :=
  match m with
  | [] => [(k, v)]
  | p :: rest =>
    if k < p.1 then (k, v) :: p :: rest
    else if p.1 = k then (k, v) :: rest
    else p :: KMap.put rest k v

/-- `m.erase(k)` (00_scope R8). -/
def KMap.erase {κ β : Type} [LinearOrder κ] (m : List (κ × β)) (k : κ) : List (κ × β) :=
  match m with
  | [] => []
  | p :: rest => if p.1 = k then KMap.erase rest k else p :: KMap.erase rest k

end Sys2Proof
end

