-- ==== Sys2Proof/Machine/State.lean ====
section
/-! DEFINITION. The state of the block, plain data: the tree of 10_state R20, the port values and marks beside it, and the
state after reset (70_reset R290). -/

namespace Sys2Proof.Machine

/-- The faults of 60_exceptions R261. The transaction that faults has no effect on the state (R263). -/
inductive Fault where
  /-- fault 1: raised by a Recorder tick whose increment would produce `2^TS_BITS` (42_recorder R212); the spec's own
  stop, so safe -/
  | timestampOverflow
  /-- fault 2: raised by OSC_OCTAVE where the sum does not fit `OCT_BITS` (41_actions R169); the spec's own stop, so
  safe -/
  | octaveOverflow
deriving DecidableEq, Repr

/-- The refusals. The transaction that is refused has no effect on the state (60_exceptions R262). -/
inductive Refusal where
  /-- raised by exec for an instruction without a meaning; safe: the run stops -/
  | notModelled (mnemonic : String)
  /-- refuse 1 of R261: raised where an action that is not well formed (30_encoding R101) is applied (41_actions R150) or
  put on the bus; the spec's own stop, so safe -/
  | illFormedAction
deriving DecidableEq, Repr

/-- The reason number of a fault (R261). -/
def Fault.number : Fault → Nat
  | .timestampOverflow => 1
  | .octaveOverflow => 2

/-- The reason number of a refusal (R261); the model's own `notModelled` has none. -/
def Refusal.number : Refusal → Option Nat
  | .notModelled _ => none
  | .illFormedAction => some 1

/-- The record of a fault: the reason and the transaction that raised it (60_exceptions R261, R263). -/
structure FaultRecord where
  reason : Fault
  txn : Option Txn
deriving DecidableEq, Repr

/-- The mark of a refused run: the reason and the transaction that raised it (R261, R262). -/
structure RefusalMark where
  reason : Refusal
  txn : Option Txn
deriving DecidableEq, Repr

/-- A voice (10_state R45). -/
structure Voice where
  /-- the signed semitone offset from A4 -/
  note : Int
  phase : Phase
  releasing : Bool
  done : Bool
deriving DecidableEq, Repr

/-- An Oscillator Bank: its parameter block (10_state R35 to R44), its 25 voice slots (R45) and its note map (R47). -/
structure Bank where
  params : Params
  slots : Vector (Option Voice) 25
  noteMap : List (Int × Fin 25)
deriving DecidableEq, Repr

/-- A Recorder (10_state R30 to R34). -/
structure Recorder where
  timestamp : Nat
  loopLength : Nat
  events : List (Nat × Action)
  armed : Bool
  paused : Bool
deriving DecidableEq, Repr

/-- A Layer (10_state R25 to R29), with its Recorder and its four Banks. -/
structure Layer where
  mute : Quad Bool
  layerAmp : Num64
  selBank : Fin 4
  recording : Bool
  /-- the press counter, 1 bit (R29) -/
  presses : Bool
  recorder : Recorder
  bank : Quad Bank
deriving DecidableEq, Repr

/-- The state of the block. -/
structure State where
  /-- `S.sel_layer` (10_state R22) -/
  selLayer : Fin 4
  /-- `S.master_amp` (R23) -/
  masterAmp : Num64
  /-- `S.power_off`, the level of `P_POWER_OFF` (R24, R63) -/
  powerOff : Bool
  /-- `S.layer[0..3]` (R20) -/
  layer : Quad Layer
  /-- the refusal mark (60_exceptions R262, 70_reset R290) -/
  refusalMark : Option RefusalMark
  /-- the fault record (60_exceptions R263, 70_reset R290) -/
  faultRecord : Option FaultRecord
  /-- the model's own: the transactions still to come, in their total order (20_memory R71; log 11) -/
  stream : List Txn
  /-- the model's own: the bytes the latest buffer transaction presented on `P_AUDIO` (10_state R62; log 13) -/
  audioOut : List Byte
  /-- the model's own: tells one transaction's free values from another's (log 10) -/
  freeDraws : Nat
deriving DecidableEq, Repr

/-- A Bank after reset, under parameters `c`: FactoryBank, every slot empty, no note held (70_reset R290). -/
def Bank.initial (c : Config) : Bank where
  params := c.factoryBank
  slots := Vector.replicate 25 none
  noteMap := []

/-- A Recorder after reset: idle (R290). -/
def Recorder.initial : Recorder where
  timestamp := 0
  loopLength := 0
  events := []
  armed := false
  paused := false

/-- A Layer after reset, under parameters `c` (R290). -/
def Layer.initial (c : Config) : Layer where
  mute := Quad.all false
  layerAmp := c.factoryLayerAmp
  selBank := c.factorySelBank
  recording := false
  presses := false
  recorder := Recorder.initial
  bank := Quad.all (Bank.initial c)

/-- The state after reset, under parameters `c` (R290). -/
def State.initial (c : Config) : State where
  selLayer := c.factorySelLayer
  masterAmp := c.factoryMasterAmp
  powerOff := false
  layer := Quad.all (Layer.initial c)
  refusalMark := none
  faultRecord := none
  stream := []
  audioOut := []
  freeDraws := 0

/-- The state of the block after reset, power-on (70_reset R290): no transaction has come yet. -/
def State.reset : State := State.initial Config.chip

end Sys2Proof.Machine
end

