-- ==== Sys2Proof/Machine/Ops.lean ====
section
/-! DEFINITION. The named operations over the state: the slots and the note map of a Bank, the voice operations of
41_actions section 5, and how a transaction is fetched and how its outcome is kept. The block takes no exception and
returns from none (60_exceptions R260, R266); what it has instead, refusing and faulting, stands here once. -/

namespace Sys2Proof.Machine

/-- What a transaction answers. -/
abbrev Result := Host.Outcome State Fault Refusal

/-! ## The slots of a Bank -/

/-- Every slot through a function. -/
def slotsMap (f : Option Voice → Option Voice) (sl : Vector (Option Voice) 25) : Vector (Option Voice) 25 :=
  ⟨⟨sl.toList.map f⟩, by simp⟩

/-- The lowest empty slot, `min { s | B.slot[s] = none }` (41_actions R176), or none where the pool is full. -/
def firstFree (sl : Vector (Option Voice) 25) : Option (Fin 25) :=
  (List.finRange 25).find? (fun s => (sl.get s).isNone)

/-- The voices of the occupied slots, in ascending slot index. -/
def voicesOf (sl : Vector (Option Voice) 25) : List Voice := sl.toList.filterMap id

/-- `voice_count(B)`: occupied slots, live or releasing (10_state R48). -/
def voiceCount (B : Bank) : Nat := (voicesOf B.slots).length

/-- `live_count(B) = |dom(B.note_map)|` (10_state R48). -/
def liveCount (B : Bank) : Nat := B.noteMap.length

/-! ## The voice operations of a Bank (41_actions section 5) -/

/-- `bank_add(B, off, vel)` (R176): the lowest free slot takes a new voice, registered under its absolute key; nothing
where the key is already held live or the pool is full. The velocity is not stored. -/
def bankAdd (c : Config) (off : Int) (_vel : Num64) (B : Bank) : Bank :=
  let k := off + c.a4
  match KMap.get B.noteMap k with
  | some _ => B
  | none =>
    match firstFree B.slots with
    | none => B
    | some s =>
      { B with
        slots := B.slots.set s.val (some { note := off, phase := c.voiceInit off, releasing := false, done := false })
        noteMap := KMap.put B.noteMap k s }

/-- `start_release()` of a voice (R177): releasing, its phase through the kernel's ReleaseStart. -/
def startRelease (c : Config) (v : Voice) : Voice := { v with releasing := true, phase := c.releaseStart v.phase }

/-- `bank_remove(B, k)` (R177): the key leaves the note map and its voice begins its release; nothing where the key is
unknown, a stray note-off. -/
def bankRemove (c : Config) (k : Int) (B : Bank) : Bank :=
  match KMap.get B.noteMap k with
  | none => B
  | some s =>
    { B with
      slots := B.slots.set s.val ((B.slots.get s).map (startRelease c))
      noteMap := KMap.erase B.noteMap k }

/-- `bank_clear_voices(B)` (R178): every slot empty and the note map empty, at once. -/
def bankClearVoices (B : Bank) : Bank := { B with slots := Vector.replicate 25 none, noteMap := [] }

/-- `bank_factory_reset(B)` (R179): the parameter block takes FactoryBank. -/
def bankFactoryReset (c : Config) (B : Bank) : Bank := { B with params := c.factoryBank }

/-- The prune of a Bank's buffer step (43_mixer R231): every done voice leaves its slot. -/
def bankPrune (B : Bank) : Bank :=
  { B with
    slots := slotsMap (fun o => match o with | none => none | some v => if v.done then none else some v) B.slots }

/-! ## Places in the tree -/

/-- `S.layer[l] <- L`. -/
def State.setLayer (s : State) (l : Fin 4) (L : Layer) : State := { s with layer := s.layer.set l L }

/-- `L.bank[b]` through a function. -/
def Layer.onBank (L : Layer) (b : Fin 4) (f : Bank → Bank) : Layer := { L with bank := L.bank.set b (f (L.bank.get b)) }

/-- The parameter block of `L.bank[b]` through a function. -/
def Layer.onParams (L : Layer) (b : Fin 4) (f : Params → Params) : Layer :=
  L.onBank b (fun B => { B with params := f B.params })

/-! ## Refusing, faulting, and the transaction -/

/-- `refuse(ILL_FORMED_ACTION)` (60_exceptions R262): no state, the run stops. -/
def refuseIllFormed : Result := .refused .illFormedAction

/-- The state a transaction leaves, from what it answered: the next state; or the state as it was, with the fault record
or the refusal mark that is kept for good (60_exceptions R261 to R263). -/
def afterTransaction (s : State) (o : Result) : State :=
  match o with
  | .next s' => s'
  | .fault f => { s with faultRecord := some { reason := f, txn := s.stream.head? } }
  | .refused r => { s with refusalMark := some { reason := r, txn := s.stream.head? } }

/-- The state in which a transaction is carried out: it has left the stream, and it has a draw of free values of its own
(20_memory R71; log 10, log 11). -/
def consume (rest : List Txn) (s : State) : State := { s with stream := rest, freeDraws := s.freeDraws + 1 }

/-- A stopped run's answer: the reason it was stopped for (R262, R263: the model takes no further step). -/
def stoppedBy (s : State) : Option Result :=
  match s.refusalMark with
  | some m => some (.refused m.reason)
  | none =>
    match s.faultRecord with
    | some f => some (.fault f.reason)
    | none => none

/-- A state with a transaction placed first in its stream and no stop recorded, so that the next step carries out
that transaction. -/
def place (t : Txn) (s : State) : State :=
  { s with stream := t :: s.stream, refusalMark := none, faultRecord := none }

end Sys2Proof.Machine
end

