-- ==== Sys2Proof/Machine/Flags.lean ====
section
/-! DEFINITION. The 1-bit state bits an action writes. The block has no condition flags (10_state R20); "flags written" of
41_actions means these bits. -/

namespace Sys2Proof.Machine

/-- `LAYER_REC` button 0, the one action that does not clear the press counter (41_actions R151). -/
def isRecStop (a : Action) : Bool := decide (a.code = .layerRec) && decide (a.param = 0)

/-- The press counter before an action is dispatched: cleared by every action the Layer processes except LAYER_REC button 0
(R151). -/
def clearPresses (a : Action) (L : Layer) : Layer := if isRecStop a then L else { L with presses := false }

/-- `L.mute[b] <- not L.mute[b]` (R166). -/
def toggleMute (b : Fin 4) (L : Layer) : Layer := { L with mute := L.mute.set b (!L.mute.get b) }

/-- `L.recording <- not L.recording` (R160). -/
def toggleRecording (L : Layer) : Layer := { L with recording := !L.recording }

/-- All four Banks are muted (43_mixer R237). -/
def allMuted (L : Layer) : Bool := L.mute.e0 && L.mute.e1 && L.mute.e2 && L.mute.e3

/-- `S.power_off <- 1` (41_actions R187). -/
def setPowerOff (s : State) : State := { s with powerOff := true }

/-- The level of the port `P_POWER_OFF` (10_state R63). -/
def portPowerOff (s : State) : Bool := s.powerOff

end Sys2Proof.Machine
end

