-- ==== Sys2Proof/Machine/Operands.lean ====
section
/-! DEFINITION. Every operand form: what a message row derives from its fields (40_decoder), what a param stands for
(41_actions), and which actions are well formed (30_encoding R101). -/

namespace Sys2Proof.Machine

/-! ## From the fields of a message -/

/-- `n = b2 / 127` (40_decoder R137). -/
def normalized (c : Config) (v : BitVec 7) : Num64 := c.num.div (c.num.ofInt v.toNat) (c.num.ofInt 127)

/-- A 7-bit field as a Num: a velocity, as it came (R111, R113). -/
def rawValue (c : Config) (v : BitVec 7) : Num64 := c.num.ofInt v.toNat

/-- `(m - 64) * 12 / 64` (R115). -/
def bendValue (c : Config) (m : BitVec 7) : Num64 :=
  c.num.div (c.num.mul (c.num.ofInt ((m.toNat : Int) - 64)) (c.num.ofInt 12)) (c.num.ofInt 64)

/-- `n * LFO_SPEED_MAX_HZ` (R133). -/
def lfoSpeedValue (c : Config) (v : BitVec 7) : Num64 := c.num.mul (normalized c v) c.lfoSpeedMax

/-- `n ^ e` (R135). -/
def cutoffValue (c : Config) (v : BitVec 7) : Num64 := c.num.powE (normalized c v)

/-- `k - MIDI_TO_A4`, exact in Int (R111). -/
def relativeNote (c : Config) (k : BitVec 7) : Int := (k.toNat : Int) - c.a4

/-- A controller's distance from its row's base, 0 to 3 (30_encoding R97). -/
def controllerIndex (idx : BitVec 2) : Int := (idx.toNat : Int)

/-- The action a row derives from a message: the decoder's result on the internal action bus (10_state R61), and on the
bus rows of the table the action itself. `none` is no action. A button row acts only where `v` is not 0 (40_decoder,
section 3). -/
def busAction (c : Config) (i : Instr) : Option Action :=
  match i with
  | .noteOn _ k v => some ⟨.addNote, relativeNote c k, rawValue c v⟩
  | .noteOnZero _ _ => none
  | .noteOff _ k v => some ⟨.removeNote, k.toNat, rawValue c v⟩
  | .bendCentre _ _ => none
  | .bend _ _ v => some ⟨.oscPitch, -1, bendValue c v⟩
  | .ccMasterVol _ v => some ⟨.masterVol, 0, normalized c v⟩
  | .ccLayerSelect _ idx v => if v = 0 then none else some ⟨.layerSelect, controllerIndex idx, c.num.zero⟩
  | .ccLayerAmp _ idx v => some ⟨.layerAmp, controllerIndex idx, normalized c v⟩
  | .ccLayerRecStop _ v => if v = 0 then none else some ⟨.layerRec, 0, c.num.zero⟩
  | .ccLayerRecPause _ v => if v = 0 then none else some ⟨.layerRec, 1, c.num.zero⟩
  | .ccLayerRecRecord _ v => if v = 0 then none else some ⟨.layerRec, 2, c.num.zero⟩
  | .ccPower _ v => if v = 0 then none else some ⟨.power, 0, c.num.zero⟩
  | .ccOscSelect _ idx v => if v = 0 then none else some ⟨.oscSelect, controllerIndex idx, c.num.zero⟩
  | .ccOscMute _ idx v => if v = 0 then none else some ⟨.oscMute, controllerIndex idx, c.num.zero⟩
  | .ccOscAmp _ idx v => some ⟨.oscAmp, controllerIndex idx, normalized c v⟩
  | .ccOscType _ v => if v = 0 then none else some ⟨.oscType, -1, c.num.zero⟩
  | .ccOctaveDown _ v => if v = 0 then none else some ⟨.oscOctave, -1, c.num.negOne⟩
  | .ccOctaveUp _ v => if v = 0 then none else some ⟨.oscOctave, -1, c.num.one⟩
  | .ccModAmp _ v => if v = 0 then none else some ⟨.modSelect, 0, c.num.zero⟩
  | .ccModPitch _ v => if v = 0 then none else some ⟨.modSelect, 1, c.num.zero⟩
  | .ccModFilter _ v => if v = 0 then none else some ⟨.modSelect, 2, c.num.zero⟩
  | .ccEnvelope _ idx v => some ⟨.envelope, controllerIndex idx, normalized c v⟩
  | .ccLfoSpeed _ v => some ⟨.lfo, 0, lfoSpeedValue c v⟩
  | .ccLfoAmp _ v => some ⟨.lfo, 1, normalized c v⟩
  | .ccFilterCutoff _ v => some ⟨.filterCutoff, -1, cutoffValue c v⟩
  | .noMatch _ => none
  | .buf => none
  | .actMasterVol p x => some ⟨.masterVol, p, x⟩
  | .actAddNote p x => some ⟨.addNote, p, x⟩
  | .actRemoveNote p x => some ⟨.removeNote, p, x⟩
  | .actLayerSelect p x => some ⟨.layerSelect, p, x⟩
  | .actLayerAmp p x => some ⟨.layerAmp, p, x⟩
  | .actLayerRecStop x => some ⟨.layerRec, 0, x⟩
  | .actLayerRecPause x => some ⟨.layerRec, 1, x⟩
  | .actLayerRecRecord x => some ⟨.layerRec, 2, x⟩
  | .actOscSelect p x => some ⟨.oscSelect, p, x⟩
  | .actOscMute p x => some ⟨.oscMute, p, x⟩
  | .actOscAmp p x => some ⟨.oscAmp, p, x⟩
  | .actOscType p x => some ⟨.oscType, p, x⟩
  | .actOscOctave p x => some ⟨.oscOctave, p, x⟩
  | .actOscPitch p x => some ⟨.oscPitch, p, x⟩
  | .actModSelect p x => some ⟨.modSelect, p, x⟩
  | .actEnvelope p x => some ⟨.envelope, p, x⟩
  | .actLfo p x => some ⟨.lfo, p, x⟩
  | .actFilterCutoff p x => some ⟨.filterCutoff, p, x⟩
  | .actPower p x => some ⟨.power, p, x⟩
  | .actUnison p x => some ⟨.unison, p, x⟩
  | .actReserved18 p x => some ⟨.reserved 0, p, x⟩
  | .actReserved19 p x => some ⟨.reserved 1, p, x⟩
  | .actReserved20 p x => some ⟨.reserved 2, p, x⟩
  | .actReserved21 p x => some ⟨.reserved 3, p, x⟩
  | .actReserved22 p x => some ⟨.reserved 4, p, x⟩
  | .actReserved23 p x => some ⟨.reserved 5, p, x⟩
  | .actReserved24 p x => some ⟨.reserved 6, p, x⟩
  | .actReserved25 p x => some ⟨.reserved 7, p, x⟩
  | .actReserved26 p x => some ⟨.reserved 8, p, x⟩
  | .actReserved27 p x => some ⟨.reserved 9, p, x⟩
  | .actReserved28 p x => some ⟨.reserved 10, p, x⟩
  | .actReserved29 p x => some ⟨.reserved 11, p, x⟩
  | .actReserved30 p x => some ⟨.reserved 12, p, x⟩
  | .actReserved31 p x => some ⟨.reserved 13, p, x⟩

/-! ## What a param stands for -/

/-- An index 0 to 3, or none (30_encoding R101). -/
def index4 (p : Int) : Option (Fin 4) :=
  if p = 0 then some 0 else if p = 1 then some 1 else if p = 2 then some 2 else if p = 3 then some 3 else none

/-- `target(L, p)`: the currently selected Bank for -1, else the Bank the action carries (41_actions R153). -/
def bankTarget (L : Layer) (p : Int) : Option (Fin 4) := if p = -1 then some L.selBank else index4 p

/-- The modulation target a MOD_SELECT param names (41_actions R171). -/
def modTargetOf (p : Int) : Option ModTarget :=
  if p = 0 then some .amp else if p = 1 then some .pitch else if p = 2 then some .filter else none

/-! ## Well-formed actions -/

/-- `-1..3`. -/
def isBankParam (p : Int) : Bool := decide (p = -1) || (index4 p).isSome

/-- `WF(a)`: the code is 0 to 16, the param in its range and fit for the bus, the value as constrained (30_encoding R101). -/
def wellFormedAction (c : Config) (a : Action) : Bool :=
  match a.code with
  | .masterVol => decide (a.param = 0)
  | .addNote => c.paramFits a.param
  | .removeNote => c.paramFits a.param
  | .layerSelect => (index4 a.param).isSome
  | .layerAmp => (index4 a.param).isSome
  | .layerRec => decide (a.param = 0 ∨ a.param = 1 ∨ a.param = 2)
  | .oscSelect => (index4 a.param).isSome
  | .oscMute => isBankParam a.param
  | .oscAmp => isBankParam a.param
  | .oscType => decide (a.param = -1)
  | .oscOctave => decide (a.param = -1) && c.num.isInteger a.value
  | .oscPitch => isBankParam a.param
  | .modSelect => (modTargetOf a.param).isSome
  | .envelope => (index4 a.param).isSome
  | .lfo => decide (a.param = 0 ∨ a.param = 1)
  | .filterCutoff => isBankParam a.param
  | .power => decide (a.param = 0)
  | .unison => false
  | .reserved _ => false

end Sys2Proof.Machine
end

