-- ==== Sys2Proof/Machine/Recorder.lean ====
section
/-! DEFINITION. The Recorder: tick, record, pause_toggle, stop (42_recorder). -/

namespace Sys2Proof.Machine

/-- An increment of the timestamp, a fault where it would produce `2^TS_BITS` (42_recorder R212). -/
def bumpTimestamp (c : Config) (n : Nat) : Except Fault Nat :=
  if c.tsFits (n + 1) then .ok (n + 1) else .error .timestampOverflow

/-- Step 1, idle to armed: a new recording clears the old one (R201). -/
def tickArm (arm : Bool) (R : Recorder) : Recorder :=
  if arm && !R.armed then { R with paused := false, timestamp := 0, events := [] } else R

/-- Step 2, armed to idle: the loop's length is frozen (R202). -/
def tickDisarm (arm : Bool) (R : Recorder) : Recorder :=
  if !arm && R.armed then { R with loopLength := R.timestamp, timestamp := 0 } else R

/-- Steps 1 and 2 and the copy of the argument: the Recorder before its counter moves (R201 to R203). -/
def tickEdges (arm : Bool) (R : Recorder) : Recorder := { tickDisarm arm (tickArm arm R) with armed := arm }

/-- Step 4 at the advanced timestamp: an event there is returned; else, past the loop's length, the loop restarts (R205). -/
def playAt (R : Recorder) : Recorder × Option Action :=
  if R.events.length = 0 then (R, none)
  else
    match KMap.get R.events R.timestamp with
    | some a => (R, some a)
    | none => if R.loopLength ≤ R.timestamp then ({ R with timestamp := 0 }, none) else (R, none)

/-- `tick(arm)` (R200): the Recorder after one buffer tick and the action it replays, if any. -/
def tick (c : Config) (arm : Bool) (R : Recorder) : Except Fault (Recorder × Option Action) :=
  let E := tickEdges arm R
  if !arm && E.paused then .ok (E, none)
  else
    match bumpTimestamp c E.timestamp with
    | .error f => .error f
    | .ok n => if arm then .ok ({ E with timestamp := n }, none) else .ok (playAt { E with timestamp := n })

/-- `record(a)` (R208): the first event is tick 1; stored under the timestamp, over an event already there, unless the
store is at its capacity. -/
def record (c : Config) (a : Action) (R : Recorder) : Recorder :=
  let R1 := if R.events.length = 0 then { R with timestamp := 1 } else R
  if R1.events.length < c.maxRecording then { R1 with events := KMap.put R1.events R1.timestamp a } else R1

/-- `pause_toggle()` (R210). -/
def pauseToggle (R : Recorder) : Recorder := if R.armed then R else { R with paused := !R.paused }

/-- `stop()` (R211): idle; the loop's length stays. -/
def stopRecorder (R : Recorder) : Recorder := { R with paused := false, timestamp := 0, events := [], armed := false }

end Sys2Proof.Machine
end

