-- ==== Sys2Proof/Machine/Router.lean ====
section
/-! DEFINITION. The Router (41_actions): the Bank setters, the Layer's dispatch and the Synth's dispatch of an action. -/

namespace Sys2Proof.Machine

/-! ## Bank parameters (R167 to R174) -/

/-- OSC_AMP (R167). -/
def setAmplitude (x : Num64) (P : Params) : Params := { P with amplitude := x }

/-- OSC_TYPE (R168): the next of the four waveforms, cyclically. -/
def nextWaveform (P : Params) : Params := { P with waveform := P.waveform + 1 }

/-- OSC_PITCH (R170): replaces the semitone component. -/
def setSteps (x : Num64) (P : Params) : Params := { P with steps := x }

/-- MOD_SELECT (R171). -/
def setModTarget (t : ModTarget) (P : Params) : Params := { P with modTarget := t }

/-- One field of an envelope by its tuple index (R172): the three times through the time curve, the sustain as given. -/
def setEnvelopeField (c : Config) (idx : Fin 4) (v : Num64) (e : Envelope) : Envelope :=
  match idx with
  | 0 => { e with attackMs := c.num.envTime v }
  | 1 => { e with decayMs := c.num.envTime v }
  | 2 => { e with sustain := v }
  | 3 => { e with releaseMs := c.num.envTime v }

/-- ENVELOPE (R172): the envelope of the selected modulation target. -/
def setEnvelope (c : Config) (idx : Fin 4) (v : Num64) (P : Params) : Params :=
  match P.modTarget with
  | .amp => { P with envAmp := setEnvelopeField c idx v P.envAmp }
  | .pitch => { P with envPitch := setEnvelopeField c idx v P.envPitch }
  | .filter => { P with envFilter := setEnvelopeField c idx v P.envFilter }

/-- One field of an LFO: its speed, or its amplitude (R173). -/
def setLfoField (speed : Bool) (x : Num64) (l : Lfo) : Lfo :=
  if speed then { l with speedHz := x } else { l with amplitude := x }

/-- LFO (R173): the LFO of the selected modulation target; the filter has none. -/
def setLfo (speed : Bool) (x : Num64) (P : Params) : Params :=
  match P.modTarget with
  | .amp => { P with lfoAmp := setLfoField speed x P.lfoAmp }
  | .pitch => { P with lfoPitch := setLfoField speed x P.lfoPitch }
  | .filter => P

/-- `clamp(x, MIN_CUTOFF, MAX_CUTOFF)` (R174); a NaN gives a free value of the interval (60_exceptions R275; log 10). -/
def clampCutoff (c : Config) (draw : Nat) (x : Num64) : Num64 :=
  if c.num.isNaN x then c.nanCutoff draw else c.num.clamp c.minCutoff c.maxCutoff x

/-- FILTER_CUTOFF (R174). -/
def setCutoff (c : Config) (draw : Nat) (v : Num64) (P : Params) : Params :=
  { P with cutoffHz := clampCutoff c draw (c.num.mul v c.maxCutoff) }

/-! ## Layer level (R151 to R166) -/

/-- `L.rec.record(a)` where the capture takes the action: a live action while recording (R157). -/
def capture (c : Config) (a : Action) (live : Bool) (L : Layer) : Layer :=
  if live && L.recording then { L with recorder := record c a L.recorder } else L

/-- The note of ADD_NOTE in one Bank, unless it is muted (R152). -/
def addUnlessMuted (c : Config) (a : Action) (muted : Bool) (B : Bank) : Bank :=
  if muted then B else bankAdd c a.param a.value B

/-- ADD_NOTE (R161): to every unmuted Bank; then the capture. -/
def layerAddNote (c : Config) (a : Action) (live : Bool) (L : Layer) : Layer :=
  capture c a live
    { L with
      bank :=
        { e0 := addUnlessMuted c a L.mute.e0 L.bank.e0
          e1 := addUnlessMuted c a L.mute.e1 L.bank.e1
          e2 := addUnlessMuted c a L.mute.e2 L.bank.e2
          e3 := addUnlessMuted c a L.mute.e3 L.bank.e3 } }

/-- REMOVE_NOTE (R162): to all four Banks, muted or not; then the capture. -/
def layerRemoveNote (c : Config) (a : Action) (live : Bool) (L : Layer) : Layer :=
  capture c a live { L with bank := L.bank.map (bankRemove c a.param) }

/-- LAYER_REC button 0, reset/stop (R158): the Recorder stopped, the voices cleared; on a second consecutive press the four
Banks take the factory defaults. -/
def layerRecStop (c : Config) (L : Layer) : Layer :=
  let cleared := L.bank.map bankClearVoices
  { L with
    recorder := stopRecorder L.recorder
    recording := false
    bank := if L.presses then cleared.map (bankFactoryReset c) else cleared
    presses := !L.presses }

/-- LAYER_REC button 1, pause (R159). -/
def layerRecPause (L : Layer) : Layer := { L with recorder := pauseToggle L.recorder }

/-- LAYER_REC by its button (R158 to R160). -/
def layerRec (c : Config) (p : Int) (L : Layer) : Layer :=
  if p = 0 then layerRecStop c L
  else if p = 1 then layerRecPause L
  else if p = 2 then toggleRecording L
  else L

/-- OSC_OCTAVE (R169) on the selected Bank: a fault where the sum does not fit `OCT_BITS`. -/
def layerOctave (c : Config) (x : Num64) (L : Layer) : Except Fault Layer :=
  let o := (L.bank.get L.selBank).params.octave + c.num.trunc x
  if c.octFits o then .ok (L.onParams L.selBank (fun P => { P with octave := o })) else .error .octaveOverflow

/-- A parameter setter on the Bank a param targets (R153). -/
def onTarget (p : Int) (f : Params → Params) (L : Layer) : Layer :=
  match bankTarget L p with
  | some b => L.onParams b f
  | none => L

/-- OSC_MUTE on the Bank a param targets (R166). -/
def layerMute (p : Int) (L : Layer) : Layer :=
  match bankTarget L p with
  | some b => toggleMute b L
  | none => L

/-- OSC_SELECT (R165). -/
def layerOscSelect (p : Int) (L : Layer) : Layer :=
  match index4 p with
  | some b => { L with selBank := b }
  | none => L

/-- MOD_SELECT on the selected Bank (R171). -/
def layerModSelect (p : Int) (L : Layer) : Layer :=
  match modTargetOf p with
  | some t => L.onParams L.selBank (setModTarget t)
  | none => L

/-- ENVELOPE on the selected Bank (R172). -/
def layerEnvelope (c : Config) (p : Int) (x : Num64) (L : Layer) : Layer :=
  match index4 p with
  | some i => L.onParams L.selBank (setEnvelope c i x)
  | none => L

/-- LFO on the selected Bank (R173). -/
def layerLfo (p : Int) (x : Num64) (L : Layer) : Layer := L.onParams L.selBank (setLfo (decide (p = 0)) x)

/-- `layer_apply(l, a, live)` on the Layer `l` (R151). `draw` names the transaction's free values. An action of the
Synth's own, which no Layer dispatches, only clears the press counter (log 16). -/
def layerApply (c : Config) (draw : Nat) (a : Action) (live : Bool) (L0 : Layer) : Except Fault Layer :=
  let L := clearPresses a L0
  match a.code with
  | .addNote => .ok (layerAddNote c a live L)
  | .removeNote => .ok (layerRemoveNote c a live L)
  | .layerAmp => .ok { L with layerAmp := a.value }
  | .layerRec => .ok (layerRec c a.param L)
  | .oscSelect => .ok (layerOscSelect a.param L)
  | .oscMute => .ok (layerMute a.param L)
  | .oscAmp => .ok (onTarget a.param (setAmplitude a.value) L)
  | .oscType => .ok (L.onParams L.selBank nextWaveform)
  | .oscOctave => layerOctave c a.value L
  | .oscPitch => .ok (onTarget a.param (setSteps a.value) L)
  | .modSelect => .ok (layerModSelect a.param L)
  | .envelope => .ok (layerEnvelope c a.param a.value L)
  | .lfo => .ok (layerLfo a.param a.value L)
  | .filterCutoff => .ok (onTarget a.param (setCutoff c draw a.value) L)
  | .masterVol => .ok L
  | .layerSelect => .ok L
  | .power => .ok L
  | .unison => .ok L
  | .reserved _ => .ok L

/-! ## Synth level (R150) -/

/-- `layer_apply(l, a, live = 1)` in the state. -/
def applyToLayer (c : Config) (l : Fin 4) (a : Action) (s : State) : Result :=
  match layerApply c s.freeDraws a true (s.layer.get l) with
  | .ok L => .next (s.setLayer l L)
  | .error f => .fault f

/-- The dispatch of a well-formed action: MASTER_VOL, LAYER_SELECT and POWER at the Synth, LAYER_AMP to the Layer it names,
everything else to the selected Layer (R150, R154 to R156, R187). -/
def dispatchAction (c : Config) (a : Action) (s : State) : Result :=
  match a.code with
  | .masterVol => .next { s with masterAmp := a.value }
  | .layerSelect =>
    match index4 a.param with
    | some l => .next { s with selLayer := l }
    | none => refuseIllFormed
  | .layerAmp =>
    match index4 a.param with
    | some l => applyToLayer c l a s
    | none => refuseIllFormed
  | .power => .next (setPowerOff s)
  | _ => applyToLayer c s.selLayer a s

/-- `apply(a)` (R150): an action that is not well formed is refused. -/
def applyAction (c : Config) (a : Action) (s : State) : Result :=
  if wellFormedAction c a then dispatchAction c a s else refuseIllFormed

/-- A message row that yields an action: the action is applied. Every action of the reference table is well formed
(30_encoding R101), so the check of R150 has nothing to refuse (log 15). -/
def applyDecoded (c : Config) (a : Action) (s : State) : Result := dispatchAction c a s

/-- A button row: no action where the value is 0 (40_decoder, section 3). -/
def applyButton (c : Config) (v : BitVec 7) (a : Action) (s : State) : Result :=
  if v = 0 then .next s else applyDecoded c a s

end Sys2Proof.Machine
end

