-- ==== Sys2Proof/Machine/BusActions.lean ====
section
/-! DEFINITION. The actions on the internal bus, one meaning per action code (41_actions): each is applied by the Router, which
refuses it where it is not well formed (R150). -/

namespace Sys2Proof.Machine

/-- ACT_MASTER_VOL (41_actions R154): the master amplitude. -/
def execActMasterVol (param : Int) (value : Num64) (s : State) : Result :=
  applyAction Config.chip ⟨.masterVol, param, value⟩ s

/-- ACT_ADD_NOTE (41_actions R161): a note to every unmuted Bank of the selected Layer. -/
def execActAddNote (param : Int) (value : Num64) (s : State) : Result :=
  applyAction Config.chip ⟨.addNote, param, value⟩ s

/-- ACT_REMOVE_NOTE (41_actions R162): a note released in every Bank of the selected Layer. -/
def execActRemoveNote (param : Int) (value : Num64) (s : State) : Result :=
  applyAction Config.chip ⟨.removeNote, param, value⟩ s

/-- ACT_LAYER_SELECT (41_actions R155): the selected Layer. -/
def execActLayerSelect (param : Int) (value : Num64) (s : State) : Result :=
  applyAction Config.chip ⟨.layerSelect, param, value⟩ s

/-- ACT_LAYER_AMP (41_actions R156): the amplitude of the Layer the param names. -/
def execActLayerAmp (param : Int) (value : Num64) (s : State) : Result :=
  applyAction Config.chip ⟨.layerAmp, param, value⟩ s

/-- ACT_LAYER_REC_STOP (41_actions R158): button 0, reset/stop. -/
def execActLayerRecStop (value : Num64) (s : State) : Result :=
  applyAction Config.chip ⟨.layerRec, 0, value⟩ s

/-- ACT_LAYER_REC_PAUSE (41_actions R159): button 1, pause. -/
def execActLayerRecPause (value : Num64) (s : State) : Result :=
  applyAction Config.chip ⟨.layerRec, 1, value⟩ s

/-- ACT_LAYER_REC_RECORD (41_actions R160): button 2, record. -/
def execActLayerRecRecord (value : Num64) (s : State) : Result :=
  applyAction Config.chip ⟨.layerRec, 2, value⟩ s

/-- ACT_OSC_SELECT (41_actions R165): the selected Bank. -/
def execActOscSelect (param : Int) (value : Num64) (s : State) : Result :=
  applyAction Config.chip ⟨.oscSelect, param, value⟩ s

/-- ACT_OSC_MUTE (41_actions R166): a mute flag toggled. -/
def execActOscMute (param : Int) (value : Num64) (s : State) : Result :=
  applyAction Config.chip ⟨.oscMute, param, value⟩ s

/-- ACT_OSC_AMP (41_actions R167): a Bank amplitude. -/
def execActOscAmp (param : Int) (value : Num64) (s : State) : Result :=
  applyAction Config.chip ⟨.oscAmp, param, value⟩ s

/-- ACT_OSC_TYPE (41_actions R168): the next waveform. -/
def execActOscType (param : Int) (value : Num64) (s : State) : Result :=
  applyAction Config.chip ⟨.oscType, param, value⟩ s

/-- ACT_OSC_OCTAVE (41_actions R169): the octave moved. -/
def execActOscOctave (param : Int) (value : Num64) (s : State) : Result :=
  applyAction Config.chip ⟨.oscOctave, param, value⟩ s

/-- ACT_OSC_PITCH (41_actions R170): the semitone component. -/
def execActOscPitch (param : Int) (value : Num64) (s : State) : Result :=
  applyAction Config.chip ⟨.oscPitch, param, value⟩ s

/-- ACT_MOD_SELECT (41_actions R171): the modulation target. -/
def execActModSelect (param : Int) (value : Num64) (s : State) : Result :=
  applyAction Config.chip ⟨.modSelect, param, value⟩ s

/-- ACT_ENVELOPE (41_actions R172): one envelope field. -/
def execActEnvelope (param : Int) (value : Num64) (s : State) : Result :=
  applyAction Config.chip ⟨.envelope, param, value⟩ s

/-- ACT_LFO (41_actions R173): one LFO field. -/
def execActLfo (param : Int) (value : Num64) (s : State) : Result :=
  applyAction Config.chip ⟨.lfo, param, value⟩ s

/-- ACT_FILTER_CUTOFF (41_actions R174): the filter cutoff. -/
def execActFilterCutoff (param : Int) (value : Num64) (s : State) : Result :=
  applyAction Config.chip ⟨.filterCutoff, param, value⟩ s

/-- ACT_POWER (41_actions R187): the power-off request. -/
def execActPower (param : Int) (value : Num64) (s : State) : Result :=
  applyAction Config.chip ⟨.power, param, value⟩ s

/-- ACT_UNISON (41_actions R188): no meaning in any source: not well formed, refused. -/
def execActUnison (param : Int) (value : Num64) (s : State) : Result :=
  applyAction Config.chip ⟨.unison, param, value⟩ s

/-- ACT_RESERVED_18 (41_actions R188): no meaning in any source: not well formed, refused. -/
def execActReserved18 (param : Int) (value : Num64) (s : State) : Result :=
  applyAction Config.chip ⟨.reserved 0, param, value⟩ s

/-- ACT_RESERVED_19 (41_actions R188): no meaning in any source: not well formed, refused. -/
def execActReserved19 (param : Int) (value : Num64) (s : State) : Result :=
  applyAction Config.chip ⟨.reserved 1, param, value⟩ s

/-- ACT_RESERVED_20 (41_actions R188): no meaning in any source: not well formed, refused. -/
def execActReserved20 (param : Int) (value : Num64) (s : State) : Result :=
  applyAction Config.chip ⟨.reserved 2, param, value⟩ s

/-- ACT_RESERVED_21 (41_actions R188): no meaning in any source: not well formed, refused. -/
def execActReserved21 (param : Int) (value : Num64) (s : State) : Result :=
  applyAction Config.chip ⟨.reserved 3, param, value⟩ s

/-- ACT_RESERVED_22 (41_actions R188): no meaning in any source: not well formed, refused. -/
def execActReserved22 (param : Int) (value : Num64) (s : State) : Result :=
  applyAction Config.chip ⟨.reserved 4, param, value⟩ s

/-- ACT_RESERVED_23 (41_actions R188): no meaning in any source: not well formed, refused. -/
def execActReserved23 (param : Int) (value : Num64) (s : State) : Result :=
  applyAction Config.chip ⟨.reserved 5, param, value⟩ s

/-- ACT_RESERVED_24 (41_actions R188): no meaning in any source: not well formed, refused. -/
def execActReserved24 (param : Int) (value : Num64) (s : State) : Result :=
  applyAction Config.chip ⟨.reserved 6, param, value⟩ s

/-- ACT_RESERVED_25 (41_actions R188): no meaning in any source: not well formed, refused. -/
def execActReserved25 (param : Int) (value : Num64) (s : State) : Result :=
  applyAction Config.chip ⟨.reserved 7, param, value⟩ s

/-- ACT_RESERVED_26 (41_actions R188): no meaning in any source: not well formed, refused. -/
def execActReserved26 (param : Int) (value : Num64) (s : State) : Result :=
  applyAction Config.chip ⟨.reserved 8, param, value⟩ s

/-- ACT_RESERVED_27 (41_actions R188): no meaning in any source: not well formed, refused. -/
def execActReserved27 (param : Int) (value : Num64) (s : State) : Result :=
  applyAction Config.chip ⟨.reserved 9, param, value⟩ s

/-- ACT_RESERVED_28 (41_actions R188): no meaning in any source: not well formed, refused. -/
def execActReserved28 (param : Int) (value : Num64) (s : State) : Result :=
  applyAction Config.chip ⟨.reserved 10, param, value⟩ s

/-- ACT_RESERVED_29 (41_actions R188): no meaning in any source: not well formed, refused. -/
def execActReserved29 (param : Int) (value : Num64) (s : State) : Result :=
  applyAction Config.chip ⟨.reserved 11, param, value⟩ s

/-- ACT_RESERVED_30 (41_actions R188): no meaning in any source: not well formed, refused. -/
def execActReserved30 (param : Int) (value : Num64) (s : State) : Result :=
  applyAction Config.chip ⟨.reserved 12, param, value⟩ s

/-- ACT_RESERVED_31 (41_actions R188): no meaning in any source: not well formed, refused. -/
def execActReserved31 (param : Int) (value : Num64) (s : State) : Result :=
  applyAction Config.chip ⟨.reserved 13, param, value⟩ s

end Sys2Proof.Machine
end

