-- ==== Sys2Proof/Machine/MidiControls.lean ====
section
/-! DEFINITION. The control-change messages (40_decoder section 3). -/

namespace Sys2Proof.Machine

/-- CC_MASTER_VOL (40_decoder R116): (MASTER_VOL, 0, n). -/
def execCcMasterVol (_ch : BitVec 4) (v : BitVec 7) (s : State) : Result :=
  applyDecoded Config.chip ⟨.masterVol, 0, normalized Config.chip v⟩ s

/-- CC_LAYER_SELECT (40_decoder R117): (LAYER_SELECT, c - 0x10, 0); no action where v = 0. -/
def execCcLayerSelect (_ch : BitVec 4) (idx : BitVec 2) (v : BitVec 7) (s : State) : Result :=
  applyButton Config.chip v ⟨.layerSelect, controllerIndex idx, Config.chip.num.zero⟩ s

/-- CC_LAYER_AMP (40_decoder R118): (LAYER_AMP, c - 0x14, n). -/
def execCcLayerAmp (_ch : BitVec 4) (idx : BitVec 2) (v : BitVec 7) (s : State) : Result :=
  applyDecoded Config.chip ⟨.layerAmp, controllerIndex idx, normalized Config.chip v⟩ s

/-- CC_LAYER_REC_STOP (40_decoder R119): (LAYER_REC, 0, 0); no action where v = 0. -/
def execCcLayerRecStop (_ch : BitVec 4) (v : BitVec 7) (s : State) : Result :=
  applyButton Config.chip v ⟨.layerRec, 0, Config.chip.num.zero⟩ s

/-- CC_LAYER_REC_PAUSE (40_decoder R120): (LAYER_REC, 1, 0); no action where v = 0. -/
def execCcLayerRecPause (_ch : BitVec 4) (v : BitVec 7) (s : State) : Result :=
  applyButton Config.chip v ⟨.layerRec, 1, Config.chip.num.zero⟩ s

/-- CC_LAYER_REC_RECORD (40_decoder R121): (LAYER_REC, 2, 0); no action where v = 0. -/
def execCcLayerRecRecord (_ch : BitVec 4) (v : BitVec 7) (s : State) : Result :=
  applyButton Config.chip v ⟨.layerRec, 2, Config.chip.num.zero⟩ s

/-- CC_POWER (40_decoder R122): (POWER, 0, 0); no action where v = 0. -/
def execCcPower (_ch : BitVec 4) (v : BitVec 7) (s : State) : Result :=
  applyButton Config.chip v ⟨.power, 0, Config.chip.num.zero⟩ s

/-- CC_OSC_SELECT (40_decoder R123): (OSC_SELECT, c - 0x20, 0); no action where v = 0. -/
def execCcOscSelect (_ch : BitVec 4) (idx : BitVec 2) (v : BitVec 7) (s : State) : Result :=
  applyButton Config.chip v ⟨.oscSelect, controllerIndex idx, Config.chip.num.zero⟩ s

/-- CC_OSC_MUTE (40_decoder R124): (OSC_MUTE, c - 0x24, 0); no action where v = 0. -/
def execCcOscMute (_ch : BitVec 4) (idx : BitVec 2) (v : BitVec 7) (s : State) : Result :=
  applyButton Config.chip v ⟨.oscMute, controllerIndex idx, Config.chip.num.zero⟩ s

/-- CC_OSC_AMP (40_decoder R125): (OSC_AMP, c - 0x28, n). -/
def execCcOscAmp (_ch : BitVec 4) (idx : BitVec 2) (v : BitVec 7) (s : State) : Result :=
  applyDecoded Config.chip ⟨.oscAmp, controllerIndex idx, normalized Config.chip v⟩ s

/-- CC_OSC_TYPE (40_decoder R126): (OSC_TYPE, -1, 0); no action where v = 0. -/
def execCcOscType (_ch : BitVec 4) (v : BitVec 7) (s : State) : Result :=
  applyButton Config.chip v ⟨.oscType, -1, Config.chip.num.zero⟩ s

/-- CC_OCTAVE_DOWN (40_decoder R127): (OSC_OCTAVE, -1, -1); no action where v = 0. -/
def execCcOctaveDown (_ch : BitVec 4) (v : BitVec 7) (s : State) : Result :=
  applyButton Config.chip v ⟨.oscOctave, -1, Config.chip.num.negOne⟩ s

/-- CC_OCTAVE_UP (40_decoder R128): (OSC_OCTAVE, -1, +1); no action where v = 0. -/
def execCcOctaveUp (_ch : BitVec 4) (v : BitVec 7) (s : State) : Result :=
  applyButton Config.chip v ⟨.oscOctave, -1, Config.chip.num.one⟩ s

/-- CC_MOD_AMP (40_decoder R129): (MOD_SELECT, 0, 0); no action where v = 0. -/
def execCcModAmp (_ch : BitVec 4) (v : BitVec 7) (s : State) : Result :=
  applyButton Config.chip v ⟨.modSelect, 0, Config.chip.num.zero⟩ s

/-- CC_MOD_PITCH (40_decoder R130): (MOD_SELECT, 1, 0); no action where v = 0. -/
def execCcModPitch (_ch : BitVec 4) (v : BitVec 7) (s : State) : Result :=
  applyButton Config.chip v ⟨.modSelect, 1, Config.chip.num.zero⟩ s

/-- CC_MOD_FILTER (40_decoder R131): (MOD_SELECT, 2, 0); no action where v = 0. -/
def execCcModFilter (_ch : BitVec 4) (v : BitVec 7) (s : State) : Result :=
  applyButton Config.chip v ⟨.modSelect, 2, Config.chip.num.zero⟩ s

/-- CC_ENVELOPE (40_decoder R132): (ENVELOPE, c - 0x34, n). -/
def execCcEnvelope (_ch : BitVec 4) (idx : BitVec 2) (v : BitVec 7) (s : State) : Result :=
  applyDecoded Config.chip ⟨.envelope, controllerIndex idx, normalized Config.chip v⟩ s

/-- CC_LFO_SPEED (40_decoder R133): (LFO, 0, n * LFO_SPEED_MAX_HZ). -/
def execCcLfoSpeed (_ch : BitVec 4) (v : BitVec 7) (s : State) : Result :=
  applyDecoded Config.chip ⟨.lfo, 0, lfoSpeedValue Config.chip v⟩ s

/-- CC_LFO_AMP (40_decoder R134): (LFO, 1, n). -/
def execCcLfoAmp (_ch : BitVec 4) (v : BitVec 7) (s : State) : Result :=
  applyDecoded Config.chip ⟨.lfo, 1, normalized Config.chip v⟩ s

/-- CC_FILTER_CUTOFF (40_decoder R135): (FILTER_CUTOFF, -1, n ^ e). -/
def execCcFilterCutoff (_ch : BitVec 4) (v : BitVec 7) (s : State) : Result :=
  applyDecoded Config.chip ⟨.filterCutoff, -1, cutoffValue Config.chip v⟩ s

end Sys2Proof.Machine
end

