-- ==== Sys2Proof/Machine/MidiNotes.lean ====
section
/-! DEFINITION. The note and pitch-bend messages (40_decoder section 1), and the word no row matches (section 4). -/

namespace Sys2Proof.Machine

/-- NOTE_ON (40_decoder R111): the action (ADD_NOTE, k - MIDI_TO_A4, v). -/
def execNoteOn (_ch : BitVec 4) (k : BitVec 7) (v : BitVec 7) (s : State) : Result :=
  applyDecoded Config.chip ⟨.addNote, relativeNote Config.chip k, rawValue Config.chip v⟩ s

/-- NOTE_ON_ZERO (40_decoder R112): no action; nothing changes. -/
def execNoteOnZero (_ch : BitVec 4) (_k : BitVec 7) (s : State) : Result :=
  .next s

/-- NOTE_OFF (40_decoder R113): the action (REMOVE_NOTE, k, v). -/
def execNoteOff (_ch : BitVec 4) (k : BitVec 7) (v : BitVec 7) (s : State) : Result :=
  applyDecoded Config.chip ⟨.removeNote, k.toNat, rawValue Config.chip v⟩ s

/-- BEND_CENTRE (40_decoder R114): no action; nothing changes. -/
def execBendCentre (_ch : BitVec 4) (_l : BitVec 7) (s : State) : Result :=
  .next s

/-- BEND (40_decoder R115): the action (OSC_PITCH, -1, (v - 64) * 12 / 64). -/
def execBend (_ch : BitVec 4) (_l : BitVec 7) (v : BitVec 7) (s : State) : Result :=
  applyDecoded Config.chip ⟨.oscPitch, -1, bendValue Config.chip v⟩ s

/-- NO_MATCH (40_decoder R136): no action; nothing changes. -/
def execNoMatch (_w : MsgWord) (s : State) : Result :=
  .next s

end Sys2Proof.Machine
end

