-- ==== Sys2Proof/Machine/Mixer.lean ====
section
/-! DEFINITION. The Mixer: the buffer transaction BUF (43_mixer), Bank, Layer and Synth. -/

namespace Sys2Proof.Machine

/-! ## Buffers (00_scope R9) -/

/-- The buffer of all zeros. -/
def zeros (c : Config) : Buffer := fun _ => c.num.zero

/-- The sample-wise sum. -/
def addBuf (c : Config) (A B : Buffer) : Buffer := fun i => c.num.add (A i) (B i)

/-- A buffer scaled by a weight. -/
def scaleBuf (c : Config) (A : Buffer) (w : Num64) : Buffer := fun i => c.num.mul (A i) w

/-- The sum of several buffers: a left fold from `zeros` in the order given (43_mixer R230). -/
def sumBufs (c : Config) (bufs : List Buffer) : Buffer := bufs.foldl (addBuf c) (zeros c)

/-! ## Bank (R231 to R235) -/

/-- The kernel call of one voice (R233, 60_exceptions R268). -/
def callKernel (c : Config) (P : Params) (v : Voice) : KernelResult :=
  c.voiceKernel P (c.pitch P) v.note v.phase v.releasing

/-- A voice advanced by one buffer: its new phase, and done where it is releasing and the kernel says so (R233). -/
def advanceVoice (c : Config) (P : Params) (v : Voice) : Voice :=
  let r := callKernel c P v
  { v with phase := r.phase, done := v.done || (v.releasing && r.kernelDone) }

/-- The silence guard (R232): no voice, or an amp sustain of exactly zero. -/
def bankSilent (c : Config) (B : Bank) : Bool := decide (voiceCount B = 0) || c.num.isZero B.params.envAmp.sustain

/-- `B.env[0].sustain / max(n, 4)` (R234). -/
def bankWeight (c : Config) (B : Bank) : Num64 :=
  c.num.div B.params.envAmp.sustain (c.num.ofInt (max (voiceCount B) 4 : Nat))

/-- The Bank's buffer step after its prune (R232 to R234). -/
def bankMix (c : Config) (B : Bank) : Bank × Buffer :=
  if bankSilent c B then (B, zeros c)
  else
    ({ B with slots := slotsMap (fun o => o.map (advanceVoice c B.params)) B.slots },
      scaleBuf c (sumBufs c ((voicesOf B.slots).map (fun v => (callKernel c B.params v).buf))) (bankWeight c B))

/-- `bank_next_buffer(B)` (R235). -/
def bankNextBuffer (c : Config) (B : Bank) : Bank × Buffer := bankMix c (bankPrune B)

/-! ## Layer (R236 to R239) -/

/-- `L.layer_amp / 4` (R238). -/
def layerWeight (c : Config) (L : Layer) : Num64 := c.num.div L.layerAmp (c.num.ofInt 4)

/-- The four Banks of a Layer stepped and mixed (R237, R238). -/
def layerMix (c : Config) (L : Layer) : Layer × Buffer :=
  let r := L.bank.map (bankNextBuffer c)
  let sum := sumBufs c [r.e0.2, r.e1.2, r.e2.2, r.e3.2]
  ({ L with bank := r.map Prod.fst }, if allMuted L then zeros c else scaleBuf c sum (layerWeight c L))

/-- The Layer's Recorder ticks, and the action it replays is applied by the Layer, not captured again (R236,
41_actions R163). -/
def layerTick (c : Config) (draw : Nat) (L : Layer) : Except Fault Layer :=
  match tick c L.recording L.recorder with
  | .error f => .error f
  | .ok (R, none) => .ok { L with recorder := R }
  | .ok (R, some a) =>
    if L.recording then .ok { L with recorder := R } else layerApply c draw a false { L with recorder := R }

/-- `layer_next_buffer(l)` (R239). -/
def layerNextBuffer (c : Config) (draw : Nat) (L : Layer) : Except Fault (Layer × Buffer) :=
  match layerTick c draw L with
  | .error f => .error f
  | .ok L' => .ok (layerMix c L')

/-! ## Synth (R240 to R242) -/

/-- `clamp(x, -1, 1)` (R241); a NaN gives a free value of the interval (93 X17; log 10). -/
def clampSample (c : Config) (draw i : Nat) (x : Num64) : Num64 :=
  if c.num.isNaN x then c.nanSample draw i else c.num.clamp c.num.negOne c.num.one x

/-- A sample's two bytes, the least significant first (20_memory R80). -/
def sampleBytes (q : BitVec 16) : List Byte := [q.extractLsb' 0 8, q.extractLsb' 8 8]

/-- The sample `i` of the answer: the scaled sum, clamped, as PCM (R240 to R242). -/
def outputSample (c : Config) (draw : Nat) (y : Buffer) (i : Nat) : BitVec 16 :=
  c.pcmQuant (clampSample c draw i (y i))

/-- The bytes of the answer, in ascending sample order (R242, 20_memory R80). -/
def outputBytes (c : Config) (draw : Nat) (y : Buffer) : List Byte :=
  (List.range c.bufferSamples).flatMap (fun i => sampleBytes (outputSample c draw y i))

/-- `S.master_amp / 4` (R240). -/
def masterWeight (c : Config) (s : State) : Num64 := c.num.div s.masterAmp (c.num.ofInt 4)

/-- The four Layers' buffer steps, in order, each to its end before the next (R240); a fault of one is the
transaction's. -/
def layersNextBuffer (c : Config) (draw : Nat) (q : Quad Layer) : Except Fault (Quad Layer × Buffer) :=
  match layerNextBuffer c draw q.e0 with
  | .error f => .error f
  | .ok (l0, x0) =>
    match layerNextBuffer c draw q.e1 with
    | .error f => .error f
    | .ok (l1, x1) =>
      match layerNextBuffer c draw q.e2 with
      | .error f => .error f
      | .ok (l2, x2) =>
        match layerNextBuffer c draw q.e3 with
        | .error f => .error f
        | .ok (l3, x3) => .ok ({ e0 := l0, e1 := l1, e2 := l2, e3 := l3 }, sumBufs c [x0, x1, x2, x3])

/-- `synth_next_buffer()` (R240): the state after it, its bytes on `P_AUDIO`. -/
def synthNextBuffer (c : Config) (s : State) : Result :=
  match layersNextBuffer c s.freeDraws s.layer with
  | .error f => .fault f
  | .ok (q, x) =>
    .next { s with layer := q, audioOut := outputBytes c s.freeDraws (scaleBuf c x (masterWeight c s)) }

/-- BUF (R240). -/
def execBuf (s : State) : Result := synthNextBuffer Config.chip s

end Sys2Proof.Machine
end

