-- ==== Sys2Proof/Machine/Dispatch.lean ====
section
/-! DEFINITION. exec: one arm per instruction. -/

namespace Sys2Proof.Machine

def exec (i : Instr) (s : State) : Host.Outcome State Fault Refusal :=
  match i with
  | .noteOn ch k v => Sys2Proof.Machine.execNoteOn ch k v s
  | .noteOnZero ch k => Sys2Proof.Machine.execNoteOnZero ch k s
  | .noteOff ch k v => Sys2Proof.Machine.execNoteOff ch k v s
  | .bendCentre ch l => Sys2Proof.Machine.execBendCentre ch l s
  | .bend ch l v => Sys2Proof.Machine.execBend ch l v s
  | .ccMasterVol ch v => Sys2Proof.Machine.execCcMasterVol ch v s
  | .ccLayerSelect ch idx v => Sys2Proof.Machine.execCcLayerSelect ch idx v s
  | .ccLayerAmp ch idx v => Sys2Proof.Machine.execCcLayerAmp ch idx v s
  | .ccLayerRecStop ch v => Sys2Proof.Machine.execCcLayerRecStop ch v s
  | .ccLayerRecPause ch v => Sys2Proof.Machine.execCcLayerRecPause ch v s
  | .ccLayerRecRecord ch v => Sys2Proof.Machine.execCcLayerRecRecord ch v s
  | .ccPower ch v => Sys2Proof.Machine.execCcPower ch v s
  | .ccOscSelect ch idx v => Sys2Proof.Machine.execCcOscSelect ch idx v s
  | .ccOscMute ch idx v => Sys2Proof.Machine.execCcOscMute ch idx v s
  | .ccOscAmp ch idx v => Sys2Proof.Machine.execCcOscAmp ch idx v s
  | .ccOscType ch v => Sys2Proof.Machine.execCcOscType ch v s
  | .ccOctaveDown ch v => Sys2Proof.Machine.execCcOctaveDown ch v s
  | .ccOctaveUp ch v => Sys2Proof.Machine.execCcOctaveUp ch v s
  | .ccModAmp ch v => Sys2Proof.Machine.execCcModAmp ch v s
  | .ccModPitch ch v => Sys2Proof.Machine.execCcModPitch ch v s
  | .ccModFilter ch v => Sys2Proof.Machine.execCcModFilter ch v s
  | .ccEnvelope ch idx v => Sys2Proof.Machine.execCcEnvelope ch idx v s
  | .ccLfoSpeed ch v => Sys2Proof.Machine.execCcLfoSpeed ch v s
  | .ccLfoAmp ch v => Sys2Proof.Machine.execCcLfoAmp ch v s
  | .ccFilterCutoff ch v => Sys2Proof.Machine.execCcFilterCutoff ch v s
  | .noMatch w => Sys2Proof.Machine.execNoMatch w s
  | .buf => Sys2Proof.Machine.execBuf s
  | .actMasterVol param value => Sys2Proof.Machine.execActMasterVol param value s
  | .actAddNote param value => Sys2Proof.Machine.execActAddNote param value s
  | .actRemoveNote param value => Sys2Proof.Machine.execActRemoveNote param value s
  | .actLayerSelect param value => Sys2Proof.Machine.execActLayerSelect param value s
  | .actLayerAmp param value => Sys2Proof.Machine.execActLayerAmp param value s
  | .actLayerRecStop value => Sys2Proof.Machine.execActLayerRecStop value s
  | .actLayerRecPause value => Sys2Proof.Machine.execActLayerRecPause value s
  | .actLayerRecRecord value => Sys2Proof.Machine.execActLayerRecRecord value s
  | .actOscSelect param value => Sys2Proof.Machine.execActOscSelect param value s
  | .actOscMute param value => Sys2Proof.Machine.execActOscMute param value s
  | .actOscAmp param value => Sys2Proof.Machine.execActOscAmp param value s
  | .actOscType param value => Sys2Proof.Machine.execActOscType param value s
  | .actOscOctave param value => Sys2Proof.Machine.execActOscOctave param value s
  | .actOscPitch param value => Sys2Proof.Machine.execActOscPitch param value s
  | .actModSelect param value => Sys2Proof.Machine.execActModSelect param value s
  | .actEnvelope param value => Sys2Proof.Machine.execActEnvelope param value s
  | .actLfo param value => Sys2Proof.Machine.execActLfo param value s
  | .actFilterCutoff param value => Sys2Proof.Machine.execActFilterCutoff param value s
  | .actPower param value => Sys2Proof.Machine.execActPower param value s
  | .actUnison param value => Sys2Proof.Machine.execActUnison param value s
  | .actReserved18 param value => Sys2Proof.Machine.execActReserved18 param value s
  | .actReserved19 param value => Sys2Proof.Machine.execActReserved19 param value s
  | .actReserved20 param value => Sys2Proof.Machine.execActReserved20 param value s
  | .actReserved21 param value => Sys2Proof.Machine.execActReserved21 param value s
  | .actReserved22 param value => Sys2Proof.Machine.execActReserved22 param value s
  | .actReserved23 param value => Sys2Proof.Machine.execActReserved23 param value s
  | .actReserved24 param value => Sys2Proof.Machine.execActReserved24 param value s
  | .actReserved25 param value => Sys2Proof.Machine.execActReserved25 param value s
  | .actReserved26 param value => Sys2Proof.Machine.execActReserved26 param value s
  | .actReserved27 param value => Sys2Proof.Machine.execActReserved27 param value s
  | .actReserved28 param value => Sys2Proof.Machine.execActReserved28 param value s
  | .actReserved29 param value => Sys2Proof.Machine.execActReserved29 param value s
  | .actReserved30 param value => Sys2Proof.Machine.execActReserved30 param value s
  | .actReserved31 param value => Sys2Proof.Machine.execActReserved31 param value s

end Sys2Proof.Machine
end

