-- ==== Sys2Proof/Machine/Step.lean ====
section
/-! DEFINITION. One step: the first transaction of the stream is decoded and carried out (20_memory R70, R71). -/

namespace Sys2Proof.Machine

/-- One step. A run that was refused or faulted takes none (60_exceptions R262, R263). With no transaction to come the block
waits, unchanged (70_reset R290). A transaction that decodes to an instruction is that instruction carried out; an action
that decodes to none is refused (41_actions R150). -/
def step (s : State) : Host.Outcome State Fault Refusal :=
  match stoppedBy s with
  | some o => o
  | none =>
    match s.stream with
    | [] => .next s
    | t :: rest =>
      match decodeTxn t with
      | .error _ => refuseIllFormed
      | .ok i => exec i (consume rest s)

/-- The state with the transaction of a row of spec/opcode_table.json placed first in its stream (log 11). -/
def State.withFetchWord (s : State) (nbits w : Nat) : State :=
  match tableTxn nbits w with
  | some t => place t s
  | none => s

end Sys2Proof.Machine
end

