-- ==== Sys2Proof/Machine/Block.lean ====
section
/-! DEFINITION. The block under any parameters (00_scope R6, 70_reset R293): what an instruction does, and one step, with the
Config as an argument. The machine the host runs (Machine/Dispatch.lean, Machine/Step.lean) is this one at Config.chip. -/

namespace Sys2Proof.Machine

/-- An instruction carried out under parameters `c`: a buffer transaction (43_mixer R240); else the action it derives,
applied (40_decoder R110, 41_actions R150), or nothing where it derives none. -/
def execWith (c : Config) (i : Instr) (s : State) : Result :=
  if i = .buf then synthNextBuffer c s
  else
    match busAction c i with
    | none => .next s
    | some a => applyAction c a s

/-- One step under parameters `c`: the first transaction of the stream, decoded by the DecodeTable of `c` (30_encoding R94,
R95), is carried out (20_memory R70, R71). -/
def stepWith (c : Config) (s : State) : Result :=
  match stoppedBy s with
  | some o => o
  | none =>
    match s.stream with
    | [] => .next s
    | t :: rest =>
      match decodeTxnWith c t with
      | .error _ => refuseIllFormed
      | .ok i => execWith c i (consume rest s)

end Sys2Proof.Machine
end

