-- ==== Sys2Proof/Safety.lean ====
section
/-! DEFINITION. What the claims speak of: what a transaction leaves unchanged, what it does to a Bank or a Recorder written
as a relation from the spec's own words, the invariants of the block, and what a clean run is. -/

namespace Sys2Proof.Safety

open Sys2Proof.Machine

/-! ## What stays -/

/-- The Synth's registers, the marks and the model's own fields: everything but the Layers. -/
structure SameOutside (s t : State) : Prop where
  selLayer : t.selLayer = s.selLayer
  masterAmp : t.masterAmp = s.masterAmp
  powerOff : t.powerOff = s.powerOff
  refusalMark : t.refusalMark = s.refusalMark
  faultRecord : t.faultRecord = s.faultRecord
  stream : t.stream = s.stream
  audioOut : t.audioOut = s.audioOut
  freeDraws : t.freeDraws = s.freeDraws

/-- Everything but the Layer `l`. -/
def OnlyLayer (l : Fin 4) (s t : State) : Prop :=
  SameOutside s t ∧ ∀ k : Fin 4, k ≠ l → t.layer.get k = s.layer.get k

/-- A Layer's registers other than its press counter, Recorder and Banks. -/
structure SameControls (L M : Layer) : Prop where
  mute : M.mute = L.mute
  layerAmp : M.layerAmp = L.layerAmp
  selBank : M.selBank = L.selBank
  recording : M.recording = L.recording

/-- In the Layer, the press counter is cleared and the parameter block of the Bank `b` becomes `P`; every other register,
the Recorder, the other Banks, and the slots and note map of the Bank `b` stay. -/
structure WritesParams (b : Fin 4) (P : Params) (L M : Layer) : Prop where
  controls : SameControls L M
  presses : M.presses = false
  recorder : M.recorder = L.recorder
  others : ∀ k : Fin 4, k ≠ b → M.bank.get k = L.bank.get k
  params : (M.bank.get b).params = P
  slots : (M.bank.get b).slots = (L.bank.get b).slots
  noteMap : (M.bank.get b).noteMap = (L.bank.get b).noteMap

/-- The Bank a param targets in a Layer: the selected one for -1, else the one the param names (41_actions R153). -/
def Targets (L : Layer) (p : Int) (b : Fin 4) : Prop := (p = -1 ∧ b = L.selBank) ∨ p = (b.val : Int)

/-- An instruction that changes the selected Layer alone, into `M`: it answers a next state in which nothing else is
changed. -/
def SelectedLayerBecomes (i : Instr) (s : State) (M : Layer) : Prop :=
  ∃ t, exec i s = .next t ∧ OnlyLayer s.selLayer s t ∧ t.layer.get s.selLayer = M

/-- An instruction that writes the parameter block of the Bank `b` of the selected Layer, the old block and the new one
being related by `rel`, and clears that Layer's press counter: it answers a next state in which nothing else is changed. -/
def WritesSelectedBank (i : Instr) (s : State) (b : Fin 4) (rel : Params → Params → Prop) : Prop :=
  ∃ t Q, exec i s = .next t ∧ OnlyLayer s.selLayer s t ∧
    WritesParams b Q (s.layer.get s.selLayer) (t.layer.get s.selLayer) ∧
    rel ((s.layer.get s.selLayer).bank.get b).params Q

/-- The Layer that processes an action (41_actions R150, R151): none for the Synth's own MASTER_VOL, LAYER_SELECT and POWER,
the Layer it names for LAYER_AMP, the selected Layer for every other. -/
def processedBy (s : State) (a : Action) : Option (Fin 4) :=
  match a.code with
  | .masterVol => none
  | .layerSelect => none
  | .power => none
  | .layerAmp => index4 a.param
  | _ => some s.selLayer

/-- What every buffer transaction leaves: the Synth's registers and the marks, each Layer's controls, and the parameters of
each Bank. -/
structure BufferKeeps (s t : State) : Prop where
  selLayer : t.selLayer = s.selLayer
  masterAmp : t.masterAmp = s.masterAmp
  powerOff : t.powerOff = s.powerOff
  refusalMark : t.refusalMark = s.refusalMark
  faultRecord : t.faultRecord = s.faultRecord
  stream : t.stream = s.stream
  freeDraws : t.freeDraws = s.freeDraws
  controls : ∀ l, SameControls (s.layer.get l) (t.layer.get l)
  params : ∀ l b, ((t.layer.get l).bank.get b).params = ((s.layer.get l).bank.get b).params

/-! ## The fields of a parameter block -/

/-- `B.env[t]` (10_state R42). -/
def envOf (P : Params) (t : ModTarget) : Envelope :=
  match t with
  | .amp => P.envAmp
  | .pitch => P.envPitch
  | .filter => P.envFilter

/-- A field of an envelope by its tuple index: 0 attack, 1 decay, 2 sustain, 3 release (10_state R42). -/
def envField (e : Envelope) (j : Fin 4) : Num64 :=
  match j with
  | 0 => e.attackMs
  | 1 => e.decayMs
  | 2 => e.sustain
  | 3 => e.releaseMs

/-- `Q` is `P` but for the field `j` of the selected target's envelope, which is `x` (41_actions R172). -/
structure EnvelopeFieldBecomes (j : Fin 4) (x : Num64) (P Q : Params) : Prop where
  written : envField (envOf Q P.modTarget) j = x
  kept : ∀ t k, (t ≠ P.modTarget ∨ k ≠ j) → envField (envOf Q t) k = envField (envOf P t) k
  rest : { Q with envAmp := P.envAmp, envPitch := P.envPitch, envFilter := P.envFilter } = P

/-- `Q` is `P` but for the speed, or the amplitude, of the selected target's LFO, which is `x`; where the filter is selected,
which has no LFO, `Q` is `P` (41_actions R173). -/
def LfoFieldBecomes (speed : Bool) (x : Num64) (P Q : Params) : Prop :=
  (P.modTarget = .amp → Q = { P with lfoAmp :=
    { speedHz := if speed then x else P.lfoAmp.speedHz, amplitude := if speed then P.lfoAmp.amplitude else x } }) ∧
  (P.modTarget = .pitch → Q = { P with lfoPitch :=
    { speedHz := if speed then x else P.lfoPitch.speedHz, amplitude := if speed then P.lfoPitch.amplitude else x } }) ∧
  (P.modTarget = .filter → Q = P)

/-- `y` is `clamp(x, lo, hi)` of an `x` that is no NaN: `lo` if `x < lo`, `hi` if `x > hi`, else `x` (43_mixer R241,
41_actions R174). -/
def ClampedTo (n : NumType) (lo hi x y : Num64) : Prop :=
  (n.lt x lo = true → y = lo) ∧ (n.lt x lo = false → n.lt hi x = true → y = hi) ∧
  (n.lt x lo = false → n.lt hi x = false → y = x)

/-! ## What a note does to a Bank -/

/-- `s` is the lowest empty slot. -/
def LowestFree (sl : Vector (Option Voice) 25) (s : Fin 25) : Prop :=
  sl.get s = none ∧ ∀ r : Fin 25, r < s → sl.get r ≠ none

/-- `bank_add` (41_actions R176) as a relation: nothing where the key is held or the pool is full; else the lowest empty
slot holds a new voice and the key names it, every other slot and key staying. -/
def AddedNote (c : Config) (off : Int) (B D : Bank) : Prop :=
  ((KMap.get B.noteMap (off + c.a4)).isSome → D = B) ∧
  ((∀ s, B.slots.get s ≠ none) → D = B) ∧
  (∀ s, KMap.get B.noteMap (off + c.a4) = none → LowestFree B.slots s →
    D.params = B.params ∧
    D.slots.get s = some { note := off, phase := c.voiceInit off, releasing := false, done := false } ∧
    (∀ r, r ≠ s → D.slots.get r = B.slots.get r) ∧
    KMap.get D.noteMap (off + c.a4) = some s ∧
    (∀ k, k ≠ off + c.a4 → KMap.get D.noteMap k = KMap.get B.noteMap k))

/-- `bank_remove` (41_actions R177) as a relation: nothing where the key is unknown; else the key is erased and the voice it
named is releasing, its phase through ReleaseStart, every other slot and key staying. -/
def RemovedNote (c : Config) (k : Int) (B D : Bank) : Prop :=
  (KMap.get B.noteMap k = none → D = B) ∧
  (∀ s v, KMap.get B.noteMap k = some s → B.slots.get s = some v →
    D.params = B.params ∧
    D.slots.get s = some { v with releasing := true, phase := c.releaseStart v.phase } ∧
    (∀ r, r ≠ s → D.slots.get r = B.slots.get r) ∧
    KMap.get D.noteMap k = none ∧
    (∀ j, j ≠ k → KMap.get D.noteMap j = KMap.get B.noteMap j))

/-- `record` (42_recorder R208) as a relation: at capacity the store stays; else the event is stored under the timestamp,
which the first event sets to 1; every other tick's event stays. -/
def Recorded (c : Config) (a : Action) (R Q : Recorder) : Prop :=
  Q.loopLength = R.loopLength ∧ Q.armed = R.armed ∧ Q.paused = R.paused ∧
  Q.timestamp = (if R.events = [] then 1 else R.timestamp) ∧
  (R.events.length < c.maxRecording →
    KMap.get Q.events Q.timestamp = some a ∧
    ∀ n, n ≠ Q.timestamp → KMap.get Q.events n = KMap.get R.events n) ∧
  (c.maxRecording ≤ R.events.length → Q.events = R.events)

/-- The capture of a live note action (41_actions R157): recorded where the Layer is recording, else the Recorder stays. -/
def Captured (c : Config) (a : Action) (L M : Layer) : Prop :=
  (L.recording = true → Recorded c a L.recorder M.recorder) ∧
  (L.recording = false → M.recorder = L.recorder)

/-- Every slot of a Bank is empty. -/
def NoVoices (B : Bank) : Prop := ∀ s, B.slots.get s = none

/-! ## Invariants -/

/-- What holds of a Bank at the end of every transaction (10_state R41, R47, 41_actions R180, 43_mixer R231): its note map is
in its canonical form and names exactly the live voices, each by its own key; a done voice is releasing; the cutoff is in
its interval; the octave fits. -/
structure BankInv (c : Config) (B : Bank) : Prop where
  mapForm : KMap.wf B.noteMap = true
  keyNamesLive : ∀ k s, KMap.get B.noteMap k = some s →
    ∃ v, B.slots.get s = some v ∧ v.releasing = false ∧ v.note + c.a4 = k
  liveNamed : ∀ s v, B.slots.get s = some v → v.releasing = false → KMap.get B.noteMap (v.note + c.a4) = some s
  doneReleasing : ∀ s v, B.slots.get s = some v → v.done = true → v.releasing = true
  cutoffLow : c.num.le c.minCutoff B.params.cutoffHz = true
  cutoffHigh : c.num.le B.params.cutoffHz c.maxCutoff = true
  octave : c.octFits B.params.octave = true

/-- ADD_NOTE or REMOVE_NOTE, the only actions a Recorder is handed (41_actions R157). -/
def isNoteAction (a : Action) : Bool := decide (a.code = .addNote) || decide (a.code = .removeNote)

/-- What holds of a Recorder at the end of every transaction (42_recorder R212, R213, 20_memory R77, 41_actions R157): its
events are in their canonical form, at most MAX_RECORDING, note actions all; it is not paused while armed; its counters fit
their width. -/
structure RecorderInv (c : Config) (R : Recorder) : Prop where
  eventsForm : KMap.wf R.events = true
  capacity : R.events.length ≤ c.maxRecording
  notes : ∀ n a, KMap.get R.events n = some a → isNoteAction a = true
  armedNotPaused : R.armed = true → R.paused = false
  timestampFits : c.tsFits R.timestamp = true
  loopFits : c.tsFits R.loopLength = true

/-- What holds of a Layer. -/
structure LayerInv (c : Config) (L : Layer) : Prop where
  recorder : RecorderInv c L.recorder
  bank : ∀ b, BankInv c (L.bank.get b)

/-- The invariant of the block, under parameters `c`. -/
def StateInv (c : Config) (s : State) : Prop := ∀ l, LayerInv c (s.layer.get l)

/-! ## Sources of an instruction -/

/-- The instruction is a message row: it comes from `P_MIDI_IN`. -/
def isMessage (i : Instr) : Bool :=
  match encode i with
  | .midi _ _ _ => true
  | .buf => false
  | .bus _ _ _ => false

/-- The instruction is OSC_OCTAVE, from a message or the bus. -/
def isOctave (i : Instr) : Bool :=
  match i with
  | .ccOctaveDown _ _ => true
  | .ccOctaveUp _ _ => true
  | .actOscOctave _ _ => true
  | _ => false

/-! ## Parameters -/

/-- At most one row of a DecodeTable matches a word (30_encoding R94). -/
def DisjointRows (table : List DecodeRow) : Prop :=
  table.Pairwise (fun r q => ∀ w, ¬ (r.matches w = true ∧ q.matches w = true))

/-- What a DecodeTable must keep (30_encoding R95): disjoint rows that produce only well-formed actions, and never BUF, which
is no message. -/
structure AdmissibleTable (c : Config) : Prop where
  disjoint : DisjointRows c.decodeTable
  noBuf : ∀ r ∈ c.decodeTable, ∀ w, r.build w ≠ .buf
  wellFormed : ∀ r ∈ c.decodeTable, ∀ w a, busAction c (r.build w) = some a → wellFormedAction c a = true

/-! ## Runs -/

/-- A run of `n` steps from `s` is clean: it ends with neither a refusal nor a fault (70_reset R295). -/
def CleanRun (n : Nat) (s : State) : Prop := ∃ t, Sys2Proof.core.run n s = .next t

/-- `n` ticks of a Recorder that is not armed, with what each returns (42_recorder R205, R206), or none where one faults. -/
def play (c : Config) (n : Nat) (R : Recorder) : Option (Recorder × List (Option Action)) :=
  match n with
  | 0 => some (R, [])
  | k + 1 =>
    match tick c false R with
    | .error _ => none
    | .ok (Q, r) =>
      match play c k Q with
      | none => none
      | some (Z, rs) => some (Z, r :: rs)

/-- `n` ticks of a Recorder that is armed (42_recorder R204), or none where one faults. -/
def armedTicks (c : Config) (n : Nat) (R : Recorder) : Option Recorder :=
  match n with
  | 0 => some R
  | k + 1 =>
    match tick c true R with
    | .error _ => none
    | .ok (Q, _) => armedTicks c k Q

end Sys2Proof.Safety
end

