-- ==== Sys2Proof/Certificates/Slice0/Obligations.lean ====
section
/-! DEFINITION. The statements for the provers, in the order of OBLIGATIONS.json. -/

open Sys2Proof Sys2Proof.Machine Sys2Proof.Safety

/-! ## Encodings -/

/-- 30_encoding R91, R96, R97, R100 (the reference table, log 5; the bus layout, log 11): no bit of an operand is lost. -/
def Obligations.EncodedInstructionDecodes : Prop :=
  ∀ i : Instr, i.wf = true → decodeTxn (encode i) = .ok i

/-- The other direction: a transaction has one instruction, and that instruction is carried by no other transaction. -/
def Obligations.DecodedTransactionReencodes : Prop :=
  ∀ (x : Txn) (i : Instr), decodeTxn x = .ok i → i.wf = true ∧ encode i = x

/-- 40_decoder R139, an inference of the spec ("So the row order does not change any result."), and 30_encoding R95 of the
reference table (log 5): its rows are disjoint and produce only well-formed actions; and in any table with disjoint rows the
row that matches decides, wherever it stands (R94). -/
def Obligations.TableRowsAreDisjoint : Prop :=
  AdmissibleTable Config.chip ∧
  (∀ table : List DecodeRow, table.Perm Config.chip.decodeTable → ∀ w, decodeWith table w = decodeWord w) ∧
  (∀ (table : List DecodeRow) (r : DecodeRow) (w : MsgWord),
    DisjointRows table → r ∈ table → r.matches w = true → decodeWith table w = r.build w)

/-- 30_encoding R98, 40_decoder R136, of the reference table (log 5): `recognized` is written from the list of R98. -/
def Obligations.UnrecognizedWordsDoNothing : Prop :=
  ∀ (w : MsgWord) (s : State),
    (recognized w = false → decodeWord w = .noMatch w ∧ exec (decodeWord w) s = .next s) ∧
    (recognized w = true → ∀ u, decodeWord w ≠ .noMatch u)

/-- Words written out from 30_encoding R96, R97 and R100 (the reference table, log 5). -/
def Obligations.SampleWordsDecode : Prop :=
  decodeWord 0x904564#24 = .noteOn 0#4 69#7 100#7 ∧
  decodeWord 0x854540#24 = .noteOff 5#4 69#7 64#7 ∧
  decodeWord 0xE00060#24 = .bend 0#4 0#7 96#7 ∧
  decodeWord 0xB0127F#24 = .ccLayerSelect 0#4 2#2 127#7 ∧
  decodeWord 0xBF2E40#24 = .ccOctaveUp 15#4 64#7 ∧
  decodeWord 0xB01800#24 = .noMatch 0xB01800#24 ∧
  decodeWord 0x908040#24 = .noMatch 0x908040#24 ∧
  decodeTxn (.bus 14#5 1 Num64.one) = .ok (.actLfo 1 Num64.one) ∧
  decodeTxn .buf = .ok .buf

/-- 30_encoding R93: the channel nibble is ignored. -/
def Obligations.ChannelIsIgnored : Prop :=
  ∀ (w u : MsgWord) (s : State), w &&& 0xF0FFFF#24 = u &&& 0xF0FFFF#24 →
    recognized w = recognized u ∧ exec (decodeWord w) s = exec (decodeWord u) s

/-! ## The step -/

/-- 20_memory R70, R71: a step carries out the first transaction of the stream, and what it adds around `exec` is that the
transaction has left the stream and has a draw of free values of its own (log 10, log 11). -/
def Obligations.StepRunsDecodedInstruction : Prop :=
  ∀ (s : State) (x : Txn) (rest : List Txn) (i : Instr),
    s.refusalMark = none → s.faultRecord = none → s.stream = x :: rest → decodeTxn x = .ok i →
    step s = exec i { s with stream := rest, freeDraws := s.freeDraws + 1 }

/-- 60_exceptions R262, R263, 70_reset R290: what a step does where it carries out no instruction: nothing while no
transaction has come; a refusal where an action decodes to none (log 15); and once a transaction has been refused or has
faulted, whose record is then the only thing it leaves, no further step is taken (log 14). -/
def Obligations.StoppedRunStaysStopped : Prop :=
  ∀ s : State, s.refusalMark = none → s.faultRecord = none →
    (s.stream = [] → step s = .next s) ∧
    (∀ x rest e, s.stream = x :: rest → decodeTxn x = .error e → step s = .refused .illFormedAction) ∧
    (∀ r : Refusal,
      afterTransaction s (.refused r) = { s with refusalMark := some { reason := r, txn := s.stream.head? } } ∧
      step (afterTransaction s (.refused r)) = .refused r) ∧
    (∀ f : Fault,
      afterTransaction s (.fault f) = { s with faultRecord := some { reason := f, txn := s.stream.head? } } ∧
      step (afterTransaction s (.fault f)) = .fault f)

/-! ## Reset -/

/-- 70_reset R290: the whole table of reset values, and the wait for the first transaction. -/
def Obligations.ResetValues : Prop :=
  State.reset.selLayer = Config.chip.factorySelLayer ∧ State.reset.masterAmp = Config.chip.factoryMasterAmp ∧
  State.reset.powerOff = false ∧ State.reset.refusalMark = none ∧ State.reset.faultRecord = none ∧
  (∀ l : Fin 4,
    (∀ b : Fin 4, (State.reset.layer.get l).mute.get b = false) ∧
    (State.reset.layer.get l).layerAmp = Config.chip.factoryLayerAmp ∧
    (State.reset.layer.get l).selBank = Config.chip.factorySelBank ∧
    (State.reset.layer.get l).recording = false ∧
    (State.reset.layer.get l).presses = false ∧
    (State.reset.layer.get l).recorder =
      { timestamp := 0, loopLength := 0, events := [], armed := false, paused := false } ∧
    ∀ b : Fin 4,
      ((State.reset.layer.get l).bank.get b).params = Config.chip.factoryBank ∧
      NoVoices ((State.reset.layer.get l).bank.get b) ∧
      ((State.reset.layer.get l).bank.get b).noteMap = []) ∧
  step State.reset = .next State.reset

/-- The invariant of the block holds after reset, and of the reset state under any parameters (70_reset R292). -/
def Obligations.ResetMeetsInvariant : Prop :=
  StateInv Config.chip State.reset ∧ ∀ c : Config, StateInv c (State.initial c)

/-! ## Whole-machine rules -/

/-- 41_actions R180, 42_recorder R213, 10_state R41, R47, 20_memory R77: every step keeps the invariant, the
block's own and the step under any parameters. -/
def Obligations.StepKeepsInvariant : Prop :=
  (∀ s t : State, StateInv Config.chip s → step s = .next t → StateInv Config.chip t) ∧
  ∀ (c : Config) (s t : State), StateInv c s → stepWith c s = .next t → StateInv c t

/-- 10_state R24: set to 1 by POWER, never cleared but by reset, and the level of P_POWER_OFF. -/
def Obligations.PowerOffIsNeverCleared : Prop :=
  (∀ (i : Instr) (s t : State), exec i s = .next t →
    (t.powerOff = true ↔ s.powerOff = true ∨ ∃ a, busAction Config.chip i = some a ∧ a.code = .power)) ∧
  (∀ s : State, portPowerOff s = s.powerOff) ∧
  State.reset.powerOff = false

/-- 10_state R22, R23: the Synth's registers are written only by LAYER_SELECT and MASTER_VOL, and with what they carry. -/
def Obligations.SynthRegistersWrittenOnlyByTheirActions : Prop :=
  ∀ (i : Instr) (s t : State), exec i s = .next t →
    (t.selLayer ≠ s.selLayer →
      ∃ a, busAction Config.chip i = some a ∧ a.code = .layerSelect ∧ a.param = (t.selLayer.val : Int)) ∧
    (t.masterAmp ≠ s.masterAmp →
      ∃ a, busAction Config.chip i = some a ∧ a.code = .masterVol ∧ t.masterAmp = a.value)

/-- 10_state R25 to R28: a Layer's registers are written only by OSC_MUTE, LAYER_AMP, OSC_SELECT and LAYER_REC. The invariant
rules out a Recorder that holds, and would replay, another action than a note. -/
def Obligations.LayerRegistersWrittenOnlyByTheirActions : Prop :=
  ∀ (i : Instr) (s t : State), StateInv Config.chip s → exec i s = .next t → ∀ l : Fin 4,
    ((t.layer.get l).mute ≠ (s.layer.get l).mute →
      ∃ a, busAction Config.chip i = some a ∧ a.code = .oscMute ∧ l = s.selLayer) ∧
    ((t.layer.get l).layerAmp ≠ (s.layer.get l).layerAmp →
      ∃ a, busAction Config.chip i = some a ∧ a.code = .layerAmp ∧ a.param = (l.val : Int)) ∧
    ((t.layer.get l).selBank ≠ (s.layer.get l).selBank →
      ∃ a, busAction Config.chip i = some a ∧ a.code = .oscSelect ∧ l = s.selLayer) ∧
    ((t.layer.get l).recording ≠ (s.layer.get l).recording →
      ∃ a, busAction Config.chip i = some a ∧ a.code = .layerRec ∧ (a.param = 0 ∨ a.param = 2) ∧ l = s.selLayer)

/-- 10_state R31, 42_recorder R202: the loop's length is written only where a tick takes its Recorder from armed to idle,
and then it is the counter. -/
def Obligations.LoopLengthWrittenOnlyAtDisarm : Prop :=
  ∀ (i : Instr) (s t : State), exec i s = .next t → ∀ l : Fin 4,
    (t.layer.get l).recorder.loopLength ≠ (s.layer.get l).recorder.loopLength →
    i = .buf ∧ (s.layer.get l).recording = false ∧ (s.layer.get l).recorder.armed = true ∧
      (t.layer.get l).recorder.loopLength = (s.layer.get l).recorder.timestamp

/-- 30_encoding R101, an inference of the spec ("Every action the reference table of rules R96 and R97 produces is well
formed"), under any parameters whose MIDI_TO_A4 is a 7-bit key (60_exceptions R261). -/
def Obligations.DecodedActionsAreWellFormed : Prop :=
  ∀ (c : Config) (i : Instr) (a : Action), 0 ≤ c.a4 → c.a4 ≤ 127 → isMessage i = true → busAction c i = some a →
    wellFormedAction c a = true

/-- 10_state R60, 40_decoder R110, 41_actions R150: a message is decoded and, if it yields an action, the Router applies it;
an action on the bus is applied. -/
def Obligations.InstructionAppliesItsAction : Prop :=
  ∀ (i : Instr) (s : State), i ≠ .buf →
    exec i s = (match busAction Config.chip i with | none => .next s | some a => applyAction Config.chip a s)

/-- 41_actions R150, 60_exceptions R262: a refusal arises exactly where the action is not well formed. -/
def Obligations.RefusedExactlyWhereIllFormed : Prop :=
  ∀ (i : Instr) (s : State) (r : Refusal), exec i s = .refused r ↔
    r = .illFormedAction ∧ ∃ a, busAction Config.chip i = some a ∧ wellFormedAction Config.chip a = false

/-- 41_actions R169, 60_exceptions R261: outside a buffer transaction the only fault is an octave that does not fit. -/
def Obligations.OctaveFaultsExactlyOnOverflow : Prop :=
  ∀ (i : Instr) (s : State) (f : Fault), i ≠ .buf →
    (exec i s = .fault f ↔
      f = .octaveOverflow ∧ ∃ a, busAction Config.chip i = some a ∧ a.code = .oscOctave ∧
        wellFormedAction Config.chip a = true ∧
        Config.chip.octFits (((s.layer.get s.selLayer).bank.get (s.layer.get s.selLayer).selBank).params.octave +
          Num64.trunc a.value) = false)

/-- 42_recorder R212, 43_mixer R240: a buffer transaction faults exactly where a Recorder's increment does not fit. The
invariant rules out a Recorder that holds, and would replay, another action than a note, and one paused while armed. -/
def Obligations.BufferFaultsExactlyOnOverflow : Prop :=
  ∀ (s : State) (f : Fault), StateInv Config.chip s →
    (exec .buf s = .fault f ↔
      f = .timestampOverflow ∧ ∃ l : Fin 4,
        (s.layer.get l).recording = (s.layer.get l).recorder.armed ∧
        ((s.layer.get l).recording = false → (s.layer.get l).recorder.paused = false) ∧
        Config.chip.tsFits ((s.layer.get l).recorder.timestamp + 1) = false)

/-- 60_exceptions R263, an inference of the spec ("With unbounded `TS_BITS` and `OCT_BITS` no fault can occur"), of every
parameters so bounded. -/
def Obligations.UnboundedWidthsNeverFault : Prop :=
  ∀ (c : Config) (s : State) (a : Action) (f : Fault), c.tsBitsLess32 = none → c.octBitsLess8 = none →
    applyAction c a s ≠ .fault f ∧ synthNextBuffer c s ≠ .fault f

/-- 41_actions R188: UNISON and the reserved codes are not well formed and refused, and no message yields one. -/
def Obligations.UnisonAndReservedRefused : Prop :=
  (∀ (p : Int) (x : Num64) (s : State),
    exec (.actUnison p x) s = .refused .illFormedAction ∧
    exec (.actReserved18 p x) s = .refused .illFormedAction ∧
    exec (.actReserved19 p x) s = .refused .illFormedAction ∧
    exec (.actReserved20 p x) s = .refused .illFormedAction ∧
    exec (.actReserved21 p x) s = .refused .illFormedAction ∧
    exec (.actReserved22 p x) s = .refused .illFormedAction ∧
    exec (.actReserved23 p x) s = .refused .illFormedAction ∧
    exec (.actReserved24 p x) s = .refused .illFormedAction ∧
    exec (.actReserved25 p x) s = .refused .illFormedAction ∧
    exec (.actReserved26 p x) s = .refused .illFormedAction ∧
    exec (.actReserved27 p x) s = .refused .illFormedAction ∧
    exec (.actReserved28 p x) s = .refused .illFormedAction ∧
    exec (.actReserved29 p x) s = .refused .illFormedAction ∧
    exec (.actReserved30 p x) s = .refused .illFormedAction ∧
    exec (.actReserved31 p x) s = .refused .illFormedAction) ∧
  (∀ (p : Int) (x : Num64) (n : Fin 14),
    wellFormedAction Config.chip ⟨.unison, p, x⟩ = false ∧ wellFormedAction Config.chip ⟨.reserved n, p, x⟩ = false) ∧
  (∀ (i : Instr) (a : Action), isMessage i = true → busAction Config.chip i = some a →
    a.code ≠ .unison ∧ ∀ n, a.code ≠ .reserved n)

/-- 41_actions R151, R158, 10_state R29: every action a Layer processes clears its press counter but LAYER_REC button 0, which
toggles it; no other Layer's counter moves. -/
def Obligations.PressCounterFollowsActions : Prop :=
  ∀ (i : Instr) (a : Action) (s t : State), busAction Config.chip i = some a → exec i s = .next t → ∀ l : Fin 4,
    (t.layer.get l).presses =
      if processedBy s a = some l then
        (if a.code = .layerRec ∧ a.param = 0 then !(s.layer.get l).presses else false)
      else (s.layer.get l).presses

/-- 41_actions R150: an action reaches one Layer, or the Synth alone. -/
def Obligations.ActionTouchesOnlyItsLayer : Prop :=
  ∀ (i : Instr) (a : Action) (s t : State), busAction Config.chip i = some a → exec i s = .next t →
    (∀ l : Fin 4, processedBy s a ≠ some l → t.layer.get l = s.layer.get l) ∧
    (processedBy s a ≠ none → SameOutside s t) ∧
    t.refusalMark = s.refusalMark ∧ t.faultRecord = s.faultRecord ∧ t.stream = s.stream ∧
    t.audioOut = s.audioOut ∧ t.freeDraws = s.freeDraws

/-! ## The Synth's own actions -/

/-- 41_actions R154 (and 40_decoder R116): the master amplitude is the value; nothing else changes. -/
def Obligations.MasterVolumeSetsMasterAmplitude : Prop :=
  ∀ (ch : BitVec 4) (v : BitVec 7) (x : Num64) (s : State),
    exec (.ccMasterVol ch v) s = .next { s with masterAmp := normalized Config.chip v } ∧
    exec (.actMasterVol 0 x) s = .next { s with masterAmp := x }

/-- 41_actions R155 (and 40_decoder R117): the selected Layer is the param; nothing else changes, no press counter either. -/
def Obligations.LayerSelectSelectsLayer : Prop :=
  ∀ (ch : BitVec 4) (idx : BitVec 2) (v : BitVec 7) (l : Fin 4) (x : Num64) (s : State),
    (v ≠ 0 → exec (.ccLayerSelect ch idx v) s = .next { s with selLayer := idx.toFin }) ∧
    exec (.actLayerSelect (l.val : Int) x) s = .next { s with selLayer := l }

/-- 41_actions R156 (and 40_decoder R118): the amplitude of the named Layer, selected or not, is the value, and its press
counter is cleared. -/
def Obligations.LayerAmplitudeSetsNamedLayer : Prop :=
  ∀ (i : Instr) (l : Fin 4) (x : Num64) (s : State),
    ((∃ ch idx v, i = .ccLayerAmp ch idx v ∧ l = idx.toFin ∧ x = normalized Config.chip v) ∨ i = .actLayerAmp (l.val : Int) x) →
    ∃ t, exec i s = .next t ∧ OnlyLayer l s t ∧
      t.layer.get l = { s.layer.get l with layerAmp := x, presses := false }

/-- 41_actions R187 (and 40_decoder R122): the power-off request is set; nothing else changes. -/
def Obligations.PowerSetsPowerOff : Prop :=
  ∀ (ch : BitVec 4) (v : BitVec 7) (x : Num64) (s : State),
    (v ≠ 0 → exec (.ccPower ch v) s = .next { s with powerOff := true }) ∧
    exec (.actPower 0 x) s = .next { s with powerOff := true }

/-- 40_decoder R112, R114, R136 and the button releases of section 3: no action, and nothing changes. -/
def Obligations.MessagesWithoutActionChangeNothing : Prop :=
  ∀ (ch : BitVec 4) (k : BitVec 7) (idx : BitVec 2) (w : MsgWord) (s : State),
    exec (.noteOnZero ch k) s = .next s ∧ exec (.bendCentre ch k) s = .next s ∧ exec (.noMatch w) s = .next s ∧
    exec (.ccLayerSelect ch idx 0) s = .next s ∧ exec (.ccLayerRecStop ch 0) s = .next s ∧
    exec (.ccLayerRecPause ch 0) s = .next s ∧ exec (.ccLayerRecRecord ch 0) s = .next s ∧
    exec (.ccPower ch 0) s = .next s ∧ exec (.ccOscSelect ch idx 0) s = .next s ∧
    exec (.ccOscMute ch idx 0) s = .next s ∧ exec (.ccOscType ch 0) s = .next s ∧
    exec (.ccOctaveDown ch 0) s = .next s ∧ exec (.ccOctaveUp ch 0) s = .next s ∧
    exec (.ccModAmp ch 0) s = .next s ∧ exec (.ccModPitch ch 0) s = .next s ∧ exec (.ccModFilter ch 0) s = .next s

/-! ## Notes -/

/-- 41_actions R161, R152, R157, R176 (and 40_decoder R111): ADD_NOTE, from a message or the bus. -/
def Obligations.AddNoteReachesUnmutedBanks : Prop :=
  ∀ (i : Instr) (off : Int) (x : Num64) (s : State),
    ((∃ ch k v, i = .noteOn ch k v ∧ off = (k.toNat : Int) - Config.chip.a4 ∧ x = rawValue Config.chip v) ∨
      (i = .actAddNote off x ∧ Config.chip.paramFits off = true)) →
    ∃ t, exec i s = .next t ∧ OnlyLayer s.selLayer s t ∧
      SameControls (s.layer.get s.selLayer) (t.layer.get s.selLayer) ∧
      (t.layer.get s.selLayer).presses = false ∧
      Captured Config.chip ⟨.addNote, off, x⟩ (s.layer.get s.selLayer) (t.layer.get s.selLayer) ∧
      ∀ b : Fin 4,
        ((s.layer.get s.selLayer).mute.get b = true →
          (t.layer.get s.selLayer).bank.get b = (s.layer.get s.selLayer).bank.get b) ∧
        ((s.layer.get s.selLayer).mute.get b = false →
          AddedNote Config.chip off ((s.layer.get s.selLayer).bank.get b) ((t.layer.get s.selLayer).bank.get b))

/-- 41_actions R162, R152, R157, R177 (and 40_decoder R113): REMOVE_NOTE, from a message or the bus. -/
def Obligations.RemoveNoteReachesEveryBank : Prop :=
  ∀ (i : Instr) (k : Int) (x : Num64) (s : State),
    ((∃ ch n v, i = .noteOff ch n v ∧ k = (n.toNat : Int) ∧ x = rawValue Config.chip v) ∨
      (i = .actRemoveNote k x ∧ Config.chip.paramFits k = true)) →
    ∃ t, exec i s = .next t ∧ OnlyLayer s.selLayer s t ∧
      SameControls (s.layer.get s.selLayer) (t.layer.get s.selLayer) ∧
      (t.layer.get s.selLayer).presses = false ∧
      Captured Config.chip ⟨.removeNote, k, x⟩ (s.layer.get s.selLayer) (t.layer.get s.selLayer) ∧
      ∀ b : Fin 4,
        RemovedNote Config.chip k ((s.layer.get s.selLayer).bank.get b) ((t.layer.get s.selLayer).bank.get b)

/-- 10_state R48, an inference of the spec: the live voices are among the voices, of which there are at most 25. -/
def Obligations.VoiceCountsAreBounded : Prop :=
  ∀ (c : Config) (B : Bank), BankInv c B → liveCount B ≤ voiceCount B ∧ voiceCount B ≤ 25

/-! ## The recording buttons -/

/-- 41_actions R158, R178, R179, 42_recorder R211 (and 40_decoder R119): button 0 stops the Recorder and clears the voices,
and on a second consecutive press the Banks take the factory defaults. -/
def Obligations.StopButtonClearsLayer : Prop :=
  ∀ (i : Instr) (s : State),
    ((∃ ch v, i = .ccLayerRecStop ch v ∧ v ≠ 0) ∨ (∃ x, i = .actLayerRecStop x)) →
    ∃ t, exec i s = .next t ∧ OnlyLayer s.selLayer s t ∧
      (t.layer.get s.selLayer).mute = (s.layer.get s.selLayer).mute ∧
      (t.layer.get s.selLayer).layerAmp = (s.layer.get s.selLayer).layerAmp ∧
      (t.layer.get s.selLayer).selBank = (s.layer.get s.selLayer).selBank ∧
      (t.layer.get s.selLayer).recording = false ∧
      (t.layer.get s.selLayer).presses = !(s.layer.get s.selLayer).presses ∧
      (t.layer.get s.selLayer).recorder =
        { timestamp := 0, loopLength := (s.layer.get s.selLayer).recorder.loopLength, events := [], armed := false,
          paused := false } ∧
      ∀ b : Fin 4,
        NoVoices ((t.layer.get s.selLayer).bank.get b) ∧
        ((t.layer.get s.selLayer).bank.get b).noteMap = [] ∧
        ((t.layer.get s.selLayer).bank.get b).params =
          if (s.layer.get s.selLayer).presses then Config.chip.factoryBank
          else ((s.layer.get s.selLayer).bank.get b).params

/-- 41_actions R159, 42_recorder R210 (and 40_decoder R120): button 1 toggles the pause of a Recorder that is not armed. -/
def Obligations.PauseButtonTogglesPause : Prop :=
  ∀ (i : Instr) (s : State),
    ((∃ ch v, i = .ccLayerRecPause ch v ∧ v ≠ 0) ∨ (∃ x, i = .actLayerRecPause x)) →
    ((s.layer.get s.selLayer).recorder.armed = true →
      SelectedLayerBecomes i s { s.layer.get s.selLayer with presses := false }) ∧
    ((s.layer.get s.selLayer).recorder.armed = false →
      SelectedLayerBecomes i s
        { s.layer.get s.selLayer with
          presses := false
          recorder :=
            { (s.layer.get s.selLayer).recorder with paused := !(s.layer.get s.selLayer).recorder.paused } })

/-- 41_actions R160 (and 40_decoder R121): button 2 toggles the recording request; the Recorder does not see it yet. -/
def Obligations.RecordButtonTogglesRequest : Prop :=
  ∀ (i : Instr) (s : State),
    ((∃ ch v, i = .ccLayerRecRecord ch v ∧ v ≠ 0) ∨ (∃ x, i = .actLayerRecRecord x)) →
    SelectedLayerBecomes i s
      { s.layer.get s.selLayer with presses := false, recording := !(s.layer.get s.selLayer).recording }

/-! ## The Banks' controls -/

/-- 41_actions R165 (and 40_decoder R123). -/
def Obligations.OscSelectSelectsBank : Prop :=
  ∀ (i : Instr) (b : Fin 4) (s : State),
    ((∃ ch idx v, i = .ccOscSelect ch idx v ∧ v ≠ 0 ∧ b = idx.toFin) ∨ (∃ x, i = .actOscSelect (b.val : Int) x)) →
    SelectedLayerBecomes i s { s.layer.get s.selLayer with presses := false, selBank := b }

/-- 41_actions R166, R153 (and 40_decoder R124): the mute flag of the targeted Bank is toggled; sounding voices stay. -/
def Obligations.OscMuteTogglesMute : Prop :=
  ∀ (i : Instr) (b : Fin 4) (s : State),
    ((∃ ch idx v, i = .ccOscMute ch idx v ∧ v ≠ 0 ∧ b = idx.toFin) ∨
      (∃ p x, i = .actOscMute p x ∧ Targets (s.layer.get s.selLayer) p b)) →
    ∃ t, exec i s = .next t ∧ OnlyLayer s.selLayer s t ∧
      t.layer.get s.selLayer =
        { s.layer.get s.selLayer with presses := false, mute := (t.layer.get s.selLayer).mute } ∧
      (t.layer.get s.selLayer).mute.get b = !(s.layer.get s.selLayer).mute.get b ∧
      ∀ k : Fin 4, k ≠ b → (t.layer.get s.selLayer).mute.get k = (s.layer.get s.selLayer).mute.get k

/-- 41_actions R167, R153 (and 40_decoder R125). -/
def Obligations.OscAmpSetsBankAmplitude : Prop :=
  ∀ (i : Instr) (b : Fin 4) (x : Num64) (s : State),
    ((∃ ch idx v, i = .ccOscAmp ch idx v ∧ b = idx.toFin ∧ x = normalized Config.chip v) ∨
      (∃ p, i = .actOscAmp p x ∧ Targets (s.layer.get s.selLayer) p b)) →
    WritesSelectedBank i s b (fun P Q => Q = { P with amplitude := x })

/-- 41_actions R168 (and 40_decoder R126): the next of the four waveforms, cyclically, on the selected Bank. -/
def Obligations.OscTypeAdvancesWaveform : Prop :=
  ∀ (i : Instr) (s : State),
    ((∃ ch v, i = .ccOscType ch v ∧ v ≠ 0) ∨ (∃ x, i = .actOscType (-1) x)) →
    WritesSelectedBank i s (s.layer.get s.selLayer).selBank
      (fun P Q => Q = { P with waveform := Q.waveform } ∧ Q.waveform.val = (P.waveform.val + 1) % 4)

/-- 41_actions R169, 10_state R40 (and 40_decoder R127, R128): the octave of the selected Bank moves, its pitch with it,
where the sum fits. An operand that is no integer is not well formed (30_encoding R101, log 17). -/
def Obligations.OscOctaveMovesOctave : Prop :=
  ∀ (i : Instr) (d : Int) (s : State),
    ((∃ ch v, i = .ccOctaveDown ch v ∧ v ≠ 0 ∧ d = -1) ∨ (∃ ch v, i = .ccOctaveUp ch v ∧ v ≠ 0 ∧ d = 1) ∨
      (∃ x, i = .actOscOctave (-1) x ∧ Num64.isInteger x = true ∧ d = Num64.trunc x)) →
    Config.chip.octFits
      (((s.layer.get s.selLayer).bank.get (s.layer.get s.selLayer).selBank).params.octave + d) = true →
    WritesSelectedBank i s (s.layer.get s.selLayer).selBank
      (fun P Q => Q = { P with octave := P.octave + d } ∧
        Config.chip.pitch Q = Num64.add (Num64.add (Num64.ofInt ((P.octave + d) * 12)) P.steps) P.cents)

/-- 41_actions R170, R153, 10_state R40 (and 40_decoder R115): the semitone component is replaced, the pitch with it. -/
def Obligations.OscPitchReplacesSteps : Prop :=
  ∀ (i : Instr) (b : Fin 4) (x : Num64) (s : State),
    ((∃ ch l m, i = .bend ch l m ∧ b = (s.layer.get s.selLayer).selBank ∧ x = bendValue Config.chip m) ∨
      (∃ p, i = .actOscPitch p x ∧ Targets (s.layer.get s.selLayer) p b)) →
    WritesSelectedBank i s b
      (fun P Q => Q = { P with steps := x } ∧
        Config.chip.pitch Q = Num64.add (Num64.add (Num64.ofInt (P.octave * 12)) x) P.cents)

/-- 41_actions R171 (and 40_decoder R129 to R131): the modulation target of the selected Bank. -/
def Obligations.ModSelectSelectsTarget : Prop :=
  ∀ (i : Instr) (m : ModTarget) (s : State),
    ((∃ ch v, v ≠ 0 ∧ ((i = .ccModAmp ch v ∧ m = .amp) ∨ (i = .ccModPitch ch v ∧ m = .pitch) ∨
        (i = .ccModFilter ch v ∧ m = .filter))) ∨
      (∃ x, (i = .actModSelect 0 x ∧ m = .amp) ∨ (i = .actModSelect 1 x ∧ m = .pitch) ∨
        (i = .actModSelect 2 x ∧ m = .filter))) →
    WritesSelectedBank i s (s.layer.get s.selLayer).selBank (fun P Q => Q = { P with modTarget := m })

/-- 41_actions R172 (and 40_decoder R132): one field of the envelope of the selected modulation target: a time through the
time curve of R175, the sustain as given. -/
def Obligations.EnvelopeWritesOneField : Prop :=
  ∀ (i : Instr) (j : Fin 4) (x : Num64) (s : State),
    ((∃ ch idx v, i = .ccEnvelope ch idx v ∧ j = idx.toFin ∧ x = normalized Config.chip v) ∨ i = .actEnvelope (j.val : Int) x) →
    WritesSelectedBank i s (s.layer.get s.selLayer).selBank
      (EnvelopeFieldBecomes j (if j = 2 then x else Config.chip.num.envTime x))

/-- 41_actions R173 (and 40_decoder R133, R134): one field of the LFO of the selected modulation target; none where the filter
is selected. -/
def Obligations.LfoWritesOneField : Prop :=
  ∀ (i : Instr) (speed : Bool) (x : Num64) (s : State),
    ((∃ ch v, i = .ccLfoSpeed ch v ∧ speed = true ∧ x = Num64.mul (normalized Config.chip v) Config.chip.lfoSpeedMax) ∨
      (∃ ch v, i = .ccLfoAmp ch v ∧ speed = false ∧ x = normalized Config.chip v) ∨
      (i = .actLfo 0 x ∧ speed = true) ∨ (i = .actLfo 1 x ∧ speed = false)) →
    WritesSelectedBank i s (s.layer.get s.selLayer).selBank (LfoFieldBecomes speed x)

/-- 41_actions R174, R153, 10_state R41 (and 40_decoder R135): the scaled value clamped; where it is a NaN, of which the spec
states no result, some value of the interval (log 10). -/
def Obligations.FilterCutoffIsClamped : Prop :=
  ∀ (i : Instr) (b : Fin 4) (x : Num64) (s : State),
    ((∃ ch v, i = .ccFilterCutoff ch v ∧ b = (s.layer.get s.selLayer).selBank ∧ x = Num64.powE (normalized Config.chip v)) ∨
      (∃ p, i = .actFilterCutoff p x ∧ Targets (s.layer.get s.selLayer) p b)) →
    WritesSelectedBank i s b
      (fun P Q => Q = { P with cutoffHz := Q.cutoffHz } ∧
        (Num64.isNaN (Num64.mul x Config.chip.maxCutoff) = false →
          ClampedTo NumType.binary64 Config.chip.minCutoff Config.chip.maxCutoff (Num64.mul x Config.chip.maxCutoff) Q.cutoffHz) ∧
        Num64.le Config.chip.minCutoff Q.cutoffHz = true ∧ Num64.le Q.cutoffHz Config.chip.maxCutoff = true)

/-- The value maps of the messages in binary64 (log 1). 40_decoder R137: the normalized controller value goes from 0 to
exactly 1, strictly increasing. R135: so does the cutoff curve at its ends. R115: a bend goes from -12.0 to 11.8125.
41_actions R175: the envelope time of 0 is 0. -/
def Obligations.ControllerScaleIncreases : Prop :=
  normalized Config.chip 0#7 = Num64.zero ∧ normalized Config.chip 127#7 = Num64.one ∧
  (∀ v u : BitVec 7, v.toNat < u.toNat →
    Num64.lt (normalized Config.chip v) (normalized Config.chip u) = true) ∧
  cutoffValue Config.chip 0#7 = Num64.zero ∧ cutoffValue Config.chip 127#7 = Num64.one ∧
  bendValue Config.chip 0#7 = 0xC028000000000000#64 ∧ bendValue Config.chip 127#7 = 0x4027A00000000000#64 ∧
  Config.chip.num.envTime Num64.zero = Num64.zero

/-! ## The Recorder's tick -/

/-- 42_recorder R201, R203, R204: a tick while recording is requested: the first one clears the old recording, and every one
counts and returns nothing. -/
def Obligations.RecordingTickCounts : Prop :=
  ∀ (c : Config) (R : Recorder),
    (R.armed = false →
      tick c true R =
        .ok ({ timestamp := 1, loopLength := R.loopLength, events := [], armed := true, paused := false }, none)) ∧
    (R.armed = true → c.tsFits (R.timestamp + 1) = true →
      tick c true R = .ok ({ R with timestamp := R.timestamp + 1 }, none))

/-- 42_recorder R202, R203: the tick that disarms freezes the loop's length and is the first playback tick. -/
def Obligations.DisarmTickFreezesLoop : Prop :=
  ∀ (c : Config) (R : Recorder), R.armed = true →
    tick c false R = tick c false { R with loopLength := R.timestamp, timestamp := 0, armed := false } ∧
    ∀ (Q : Recorder) (r : Option Action), tick c false R = .ok (Q, r) → Q.loopLength = R.timestamp ∧ Q.armed = false

/-- 42_recorder R205, R206: a playback tick: nothing while paused; else the next timestamp, the event there, or the restart
of the loop past its length. -/
def Obligations.PlaybackTickReplaysLoop : Prop :=
  ∀ (c : Config) (R : Recorder), R.armed = false →
    (R.paused = true → tick c false R = .ok (R, none)) ∧
    (R.paused = false → c.tsFits (R.timestamp + 1) = true →
      (∀ a, KMap.get R.events (R.timestamp + 1) = some a →
        tick c false R = .ok ({ R with timestamp := R.timestamp + 1 }, some a)) ∧
      (R.events ≠ [] → KMap.get R.events (R.timestamp + 1) = none → R.loopLength ≤ R.timestamp + 1 →
        tick c false R = .ok ({ R with timestamp := 0 }, none)) ∧
      (R.events ≠ [] → KMap.get R.events (R.timestamp + 1) = none → R.timestamp + 1 < R.loopLength →
        tick c false R = .ok ({ R with timestamp := R.timestamp + 1 }, none)) ∧
      (R.events = [] → tick c false R = .ok ({ R with timestamp := R.timestamp + 1 }, none)))

/-- 42_recorder R213, an inference of the spec: while a loop plays, its timestamp stays within its length. -/
def Obligations.PlayingTimestampStaysInLoop : Prop :=
  ∀ (c : Config) (R Q : Recorder) (r : Option Action),
    R.armed = false → R.paused = false → R.events ≠ [] →
    (∀ n a, KMap.get R.events n = some a → n ≤ R.loopLength) → R.timestamp ≤ R.loopLength →
    tick c false R = .ok (Q, r) →
    Q.armed = false ∧ Q.paused = false ∧ Q.events = R.events ∧ Q.loopLength = R.loopLength ∧
      Q.timestamp ≤ Q.loopLength

/-- 42_recorder R214, an inference of the spec, of any length `n` and not only 9: arm for any ticks, record `a`, record `b`
`n` ticks later, release: the loop's length is `n + 1`, and every pass of `n + 2` ticks returns `a` first, `b` at the tick
`n + 1`, then nothing. -/
def Obligations.RecordedLoopReplays : Prop :=
  ∀ (c : Config) (R : Recorder) (a b : Action) (j n : Nat),
    R.armed = false → 1 ≤ n → 2 ≤ c.maxRecording → c.tsFits (j + 1) = true → c.tsFits (n + 2) = true →
    ∃ R1 R2 Q, armedTicks c (j + 1) R = some R1 ∧ armedTicks c n (record c a R1) = some R2 ∧
      play c (n + 2) (record c b R2) = some (Q, some a :: (List.replicate (n - 1) none ++ [some b, none])) ∧
      play c (n + 2) Q = some (Q, some a :: (List.replicate (n - 1) none ++ [some b, none])) ∧
      Q.loopLength = n + 1

/-! ## The buffer transaction -/

/-- 43_mixer R240, 20_memory R82: a buffer transaction whose counters have room completes, answers two bytes a sample, and
leaves every register that no rule of it writes. The invariant rules out a Recorder that holds another action than a note. -/
def Obligations.BufferCompletes : Prop :=
  ∀ s : State, StateInv Config.chip s →
    (∀ l : Fin 4, Config.chip.tsFits ((s.layer.get l).recorder.timestamp + 1) = true) →
    ∃ t, exec .buf s = .next t ∧ BufferKeeps s t ∧ t.audioOut.length = 2 * Config.chip.bufferSamples

/-- 43_mixer R236, R237, R239, 41_actions R163: what a buffer transaction does to each Layer: its Recorder ticks with its own
recording request, a note action the tick returns is applied to that same Layer and not captured, and every Bank, muted or
not, takes its buffer step. -/
def Obligations.BufferStepsEveryLayer : Prop :=
  ∀ s t : State, StateInv Config.chip s → exec .buf s = .next t → ∀ l : Fin 4, ∃ r,
    tick Config.chip (s.layer.get l).recording (s.layer.get l).recorder = .ok ((t.layer.get l).recorder, r) ∧
    (t.layer.get l).recorder.armed = (s.layer.get l).recording ∧
    (r = none →
      (t.layer.get l).presses = (s.layer.get l).presses ∧
      ∀ b, (t.layer.get l).bank.get b = (bankNextBuffer Config.chip ((s.layer.get l).bank.get b)).1) ∧
    (∀ a, r = some a →
      (t.layer.get l).presses = false ∧
      ((a.code = .addNote ∧ ∀ b, (t.layer.get l).bank.get b =
          (bankNextBuffer Config.chip
            (if (s.layer.get l).mute.get b then (s.layer.get l).bank.get b
              else bankAdd Config.chip a.param a.value ((s.layer.get l).bank.get b))).1) ∨
       (a.code = .removeNote ∧ ∀ b, (t.layer.get l).bank.get b =
          (bankNextBuffer Config.chip (bankRemove Config.chip a.param ((s.layer.get l).bank.get b))).1)))

/-- 43_mixer R231, R232, R233: what a Bank's buffer step does to each slot: a done voice leaves; while the Bank is silent a
voice stays as it is; else it is advanced through the kernel, and is done once it is releasing and the kernel says so. -/
def Obligations.BankBufferAdvancesVoices : Prop :=
  ∀ (c : Config) (B : Bank) (s : Fin 25),
    (bankNextBuffer c B).1.params = B.params ∧ (bankNextBuffer c B).1.noteMap = B.noteMap ∧
    (B.slots.get s = none → (bankNextBuffer c B).1.slots.get s = none) ∧
    ∀ v, B.slots.get s = some v →
      (v.done = true → (bankNextBuffer c B).1.slots.get s = none) ∧
      (v.done = false → c.num.isZero B.params.envAmp.sustain = true →
        (bankNextBuffer c B).1.slots.get s = some v) ∧
      (v.done = false → c.num.isZero B.params.envAmp.sustain = false →
        (bankNextBuffer c B).1.slots.get s =
          some { v with
            phase := (c.voiceKernel B.params (c.pitch B.params) v.note v.phase v.releasing).phase
            done := v.releasing &&
              (c.voiceKernel B.params (c.pitch B.params) v.note v.phase v.releasing).kernelDone })

/-- 43_mixer R230, R232, R234, R237, R238: what a Bank and a Layer put out: zeros where the silence guard or the mutes say so;
else the sums in ascending order, each sample times the weight. -/
def Obligations.MixIsWeighted : Prop :=
  (∀ (c : Config) (B : Bank) (k : Nat),
    ((voiceCount (bankPrune B) = 0 ∨ c.num.isZero B.params.envAmp.sustain = true) →
      (bankNextBuffer c B).2 k = c.num.zero) ∧
    (voiceCount (bankPrune B) ≠ 0 → c.num.isZero B.params.envAmp.sustain = false →
      (bankNextBuffer c B).2 k =
        c.num.mul
          ((voicesOf (bankPrune B).slots).foldl
            (fun acc v => c.num.add acc ((c.voiceKernel B.params (c.pitch B.params) v.note v.phase v.releasing).buf k))
            c.num.zero)
          (c.num.div B.params.envAmp.sustain (c.num.ofInt ((max (voiceCount (bankPrune B)) 4 : Nat) : Int))))) ∧
  (∀ (c : Config) (L : Layer) (k : Nat),
    ((∀ b, L.mute.get b = true) → (layerMix c L).2 k = c.num.zero) ∧
    ((∃ b, L.mute.get b = false) →
      (layerMix c L).2 k =
        c.num.mul
          (c.num.add (c.num.add (c.num.add (c.num.add c.num.zero ((bankNextBuffer c (L.bank.get 0)).2 k))
            ((bankNextBuffer c (L.bank.get 1)).2 k)) ((bankNextBuffer c (L.bank.get 2)).2 k))
            ((bankNextBuffer c (L.bank.get 3)).2 k))
          (c.num.div L.layerAmp (c.num.ofInt 4))))

/-- 43_mixer R241: the clamp of a sample; a NaN becomes some value in the interval (log 10). -/
def Obligations.SamplesAreClamped : Prop :=
  ∀ (c : Config) (d k : Nat) (x : Num64),
    (c.num.isNaN x = false → ClampedTo c.num c.num.negOne c.num.one x (clampSample c d k x)) ∧
    c.num.le c.num.negOne (clampSample c d k x) = true ∧ c.num.le (clampSample c d k x) c.num.one = true

/-- 43_mixer R230, R240, R241, R242, R244, 10_state R23, 20_memory R80: what a buffer transaction answers. Each Layer ticks and
mixes; the four buffers are summed in ascending order and scaled by `master_amp / 4`; each sample is clamped and quantized
by the reference PCM_QUANT (log 4), to a magnitude of at most 32767; and the answer holds the samples in ascending order,
the low byte of each first. -/
def Obligations.BufferAnswersBoundedSamples : Prop :=
  ∀ s t : State, exec .buf s = .next t →
    ∃ (X : Fin 4 → Buffer) (q : Nat → BitVec 16),
      (∀ l, ∃ M, layerTick Config.chip s.freeDraws (s.layer.get l) = .ok M ∧
        layerMix Config.chip M = (t.layer.get l, X l)) ∧
      (∀ k, q k = pcmReference NumType.binary64
        (clampSample Config.chip s.freeDraws k
          (Num64.mul
            (Num64.add (Num64.add (Num64.add (Num64.add Num64.zero (X 0 k)) (X 1 k)) (X 2 k)) (X 3 k))
            (Num64.div s.masterAmp (Num64.ofInt 4))))) ∧
      (∀ k, -32767 ≤ (q k).toInt ∧ (q k).toInt ≤ 32767) ∧
      t.audioOut.length = 2 * Config.chip.bufferSamples ∧
      ∀ k, k < Config.chip.bufferSamples →
        t.audioOut[2 * k]? = some ((q k).extractLsb' 0 8) ∧
        t.audioOut[2 * k + 1]? = some ((q k).extractLsb' 8 8)

/-- 43_mixer R244, an inference of the spec: a block without voices and without recorded events, whose weights are finite,
answers a request with zero bytes. -/
def Obligations.BlockWithoutVoicesIsSilent : Prop :=
  ∀ s t : State,
    (∀ l b : Fin 4, NoVoices ((s.layer.get l).bank.get b)) →
    (∀ l : Fin 4, (s.layer.get l).recorder.events = []) →
    (∀ l : Fin 4, Num64.isFinite (layerWeight Config.chip (s.layer.get l)) = true) →
    Num64.isFinite (masterWeight Config.chip s) = true →
    exec .buf s = .next t → t.audioOut = List.replicate (2 * Config.chip.bufferSamples) 0#8

/-- 43_mixer R240, R236: no Layer's buffer step reads another Layer, whatever it holds. -/
def Obligations.LayersStepIndependently : Prop :=
  ∀ (s t u v : State) (l : Fin 4), s.freeDraws = u.freeDraws → s.layer.get l = u.layer.get l →
    exec .buf s = .next t → exec .buf u = .next v → t.layer.get l = v.layer.get l

/-! ## Parameters -/

/-- 00_scope R6, 30_encoding R94, R95, 40_decoder R110, 70_reset R293: the block's step is the step under any parameters, at
the parameters of the block; and under any parameters a message is decoded by their DecodeTable, whatever its rows. -/
def Obligations.StepTakesParameters : Prop :=
  (∀ s : State, step s = stepWith Config.chip s) ∧
  ∀ (c : Config) (s : State) (b0 b1 b2 : Byte) (rest : List Txn),
    s.refusalMark = none → s.faultRecord = none → s.stream = .midi b0 b1 b2 :: rest →
    (∀ r, AdmissibleTable c → r ∈ c.decodeTable → r.matches (wordOf b0 b1 b2) = true →
      stepWith c s =
        (match busAction c (r.build (wordOf b0 b1 b2)) with
        | none => .next (consume rest s)
        | some a => dispatchAction c a (consume rest s))) ∧
    ((∀ r ∈ c.decodeTable, r.matches (wordOf b0 b1 b2) = false) → stepWith c s = .next (consume rest s))
end

