-- ==== Sys2Proof/Laws/Stores.lean ====
section
/-! SUPPORT. The laws of the stores: reading after writing in a Quad and in a partial map, and that every map operation
keeps the canonical form. -/

namespace Sys2Proof.Laws

open Sys2Proof

variable {α β : Type}

@[simp] theorem quad_get_zero (q : Quad α) : q.get 0 = q.e0 := rfl
@[simp] theorem quad_get_one (q : Quad α) : q.get 1 = q.e1 := rfl
@[simp] theorem quad_get_two (q : Quad α) : q.get 2 = q.e2 := rfl
@[simp] theorem quad_get_three (q : Quad α) : q.get 3 = q.e3 := rfl

/-- Reading the element just written. -/
@[simp] theorem quad_get_set (q : Quad α) (i : Fin 4) (a : α) : (q.set i a).get i = a := by
  match i with
  | 0 => rfl
  | 1 => rfl
  | 2 => rfl
  | 3 => rfl

/-- Writing one element leaves the others. -/
theorem quad_get_set_ne (q : Quad α) (i j : Fin 4) (a : α) (h : j ≠ i) : (q.set i a).get j = q.get j := by
  match i, j with
  | 0, 0 => exact absurd rfl h
  | 0, 1 => rfl
  | 0, 2 => rfl
  | 0, 3 => rfl
  | 1, 0 => rfl
  | 1, 1 => exact absurd rfl h
  | 1, 2 => rfl
  | 1, 3 => rfl
  | 2, 0 => rfl
  | 2, 1 => rfl
  | 2, 2 => exact absurd rfl h
  | 2, 3 => rfl
  | 3, 0 => rfl
  | 3, 1 => rfl
  | 3, 2 => rfl
  | 3, 3 => exact absurd rfl h

/-- Writing back what is there changes nothing. -/
@[simp] theorem quad_set_get (q : Quad α) (i : Fin 4) : q.set i (q.get i) = q := by
  match i with
  | 0 => rfl
  | 1 => rfl
  | 2 => rfl
  | 3 => rfl

@[simp] theorem quad_get_map (f : α → β) (q : Quad α) (i : Fin 4) : (q.map f).get i = f (q.get i) := by
  match i with
  | 0 => rfl
  | 1 => rfl
  | 2 => rfl
  | 3 => rfl

@[simp] theorem quad_get_all (a : α) (i : Fin 4) : (Quad.all a).get i = a := by
  match i with
  | 0 => rfl
  | 1 => rfl
  | 2 => rfl
  | 3 => rfl

/-- Two Quads are equal when their elements are. -/
theorem quad_ext (p q : Quad α) (h : ∀ i, p.get i = q.get i) : p = q := by
  obtain ⟨a, b, c, d⟩ := p
  obtain ⟨a', b', c', d'⟩ := q
  have h0 := h 0
  have h1 := h 1
  have h2 := h 2
  have h3 := h 3
  simp only [quad_get_zero, quad_get_one, quad_get_two, quad_get_three] at h0 h1 h2 h3
  simp [h0, h1, h2, h3]

variable {κ : Type} [LinearOrder κ]

@[simp] theorem kmap_get_nil (k : κ) : KMap.get ([] : List (κ × β)) k = none := rfl

/-- `get` after `put` of the same key. -/
@[simp] theorem kmap_get_put (m : List (κ × β)) (k : κ) (v : β) : KMap.get (KMap.put m k v) k = some v := by
  induction m with
  | nil => simp [KMap.put, KMap.get]
  | cons p rest ih =>
    simp only [KMap.put]
    split
    · simp [KMap.get]
    · split
      · simp [KMap.get]
      · rename_i h
        simp [KMap.get, h, ih]

/-- `get` after `put` of another key. -/
theorem kmap_get_put_ne (m : List (κ × β)) (k j : κ) (v : β) (h : j ≠ k) :
    KMap.get (KMap.put m k v) j = KMap.get m j := by
  induction m with
  | nil => simp [KMap.put, KMap.get, h.symm]
  | cons p rest ih =>
    simp only [KMap.put]
    split
    · simp [KMap.get, h.symm]
    · split
      · rename_i hk
        simp [KMap.get, hk, h.symm]
      · simp [KMap.get, ih]

/-- `get` after `erase` of the same key. -/
@[simp] theorem kmap_get_erase (m : List (κ × β)) (k : κ) : KMap.get (KMap.erase m k) k = none := by
  induction m with
  | nil => rfl
  | cons p rest ih =>
    simp only [KMap.erase]
    split
    · exact ih
    · rename_i h
      simp [KMap.get, h, ih]

/-- `get` after `erase` of another key. -/
theorem kmap_get_erase_ne (m : List (κ × β)) (k j : κ) (h : j ≠ k) : KMap.get (KMap.erase m k) j = KMap.get m j := by
  induction m with
  | nil => rfl
  | cons p rest ih =>
    simp only [KMap.erase]
    split
    · rename_i hk
      rw [ih]
      simp [KMap.get, hk, h.symm]
    · simp [KMap.get, ih]

/-- A key that is read is the key of an entry. -/
theorem kmap_get_mem (m : List (κ × β)) (k : κ) (v : β) (h : KMap.get m k = some v) : (k, v) ∈ m := by
  induction m with
  | nil => simp [KMap.get] at h
  | cons p rest ih =>
    simp only [KMap.get] at h
    split at h
    · rename_i hk
      obtain ⟨a, b⟩ := p
      simp_all
    · exact List.mem_cons_of_mem _ (ih h)

/-- In canonical form, the head's key is below every other. -/
theorem kmap_wf_head_lt (p : κ × β) (m : List (κ × β)) (h : KMap.wf (p :: m) = true) : ∀ q ∈ m, p.1 < q.1 := by
  induction m generalizing p with
  | nil => simp
  | cons q rest ih =>
    simp only [KMap.wf, Bool.and_eq_true, decide_eq_true_eq] at h
    intro r hr
    rcases List.mem_cons.mp hr with rfl | hr
    · exact h.1
    · exact lt_trans h.1 (ih q h.2 r hr)

/-- A list in canonical form has a canonical tail. -/
theorem kmap_wf_tail (p : κ × β) (m : List (κ × β)) (h : KMap.wf (p :: m) = true) : KMap.wf m = true := by
  cases m with
  | nil => rfl
  | cons q rest => simp only [KMap.wf, Bool.and_eq_true] at h; exact h.2

/-- Canonical form from the head's bound and the tail's form. -/
theorem kmap_wf_cons (p : κ × β) (m : List (κ × β)) (hm : KMap.wf m = true) (h : ∀ q ∈ m, p.1 < q.1) :
    KMap.wf (p :: m) = true := by
  cases m with
  | nil => rfl
  | cons q rest => simp [KMap.wf, h q (by simp), hm]

/-- The entries after a `put`: the new one, or one that was there. -/
theorem kmap_mem_put (m : List (κ × β)) (k : κ) (v : β) (q : κ × β) (h : q ∈ KMap.put m k v) : q = (k, v) ∨ q ∈ m := by
  induction m with
  | nil => simpa [KMap.put] using h
  | cons p rest ih =>
    simp only [KMap.put] at h
    split at h
    · simpa using h
    · split at h
      · rcases List.mem_cons.mp h with h | h
        · exact Or.inl h
        · exact Or.inr (List.mem_cons_of_mem _ h)
      · rcases List.mem_cons.mp h with h | h
        · exact Or.inr (by simp [h])
        · rcases ih h with h | h
          · exact Or.inl h
          · exact Or.inr (List.mem_cons_of_mem _ h)

/-- The entries after an `erase` were there. -/
theorem kmap_mem_erase (m : List (κ × β)) (k : κ) (q : κ × β) (h : q ∈ KMap.erase m k) : q ∈ m := by
  induction m with
  | nil => exact h
  | cons p rest ih =>
    simp only [KMap.erase] at h
    split at h
    · exact List.mem_cons_of_mem _ (ih h)
    · rcases List.mem_cons.mp h with h | h
      · simp [h]
      · exact List.mem_cons_of_mem _ (ih h)

/-- `put` keeps the canonical form. -/
theorem kmap_wf_put (m : List (κ × β)) (k : κ) (v : β) (h : KMap.wf m = true) : KMap.wf (KMap.put m k v) = true := by
  induction m with
  | nil => rfl
  | cons p rest ih =>
    have hp := kmap_wf_head_lt p rest h
    have ht := kmap_wf_tail p rest h
    simp only [KMap.put]
    split
    · rename_i hk
      refine kmap_wf_cons _ _ h ?_
      intro q hq
      rcases List.mem_cons.mp hq with rfl | hq
      · exact hk
      · exact lt_trans hk (hp q hq)
    · rename_i hlt
      split
      · rename_i hk
        exact kmap_wf_cons _ _ ht (fun q hq => hk ▸ hp q hq)
      · rename_i hne
        refine kmap_wf_cons _ _ (ih ht) ?_
        intro q hq
        rcases kmap_mem_put rest k v q hq with rfl | hq
        · exact lt_of_le_of_ne (not_lt.mp hlt) hne
        · exact hp q hq

/-- `erase` keeps the canonical form. -/
theorem kmap_wf_erase (m : List (κ × β)) (k : κ) (h : KMap.wf m = true) : KMap.wf (KMap.erase m k) = true := by
  induction m with
  | nil => rfl
  | cons p rest ih =>
    have hp := kmap_wf_head_lt p rest h
    have ht := kmap_wf_tail p rest h
    simp only [KMap.erase]
    split
    · exact ih ht
    · exact kmap_wf_cons _ _ (ih ht) (fun q hq => hp q (kmap_mem_erase rest k q hq))

/-- `put` adds at most one entry. -/
theorem kmap_length_put (m : List (κ × β)) (k : κ) (v : β) : (KMap.put m k v).length ≤ m.length + 1 := by
  induction m with
  | nil => simp [KMap.put]
  | cons p rest ih =>
    simp only [KMap.put]
    split
    · simp
    · split
      · simp
      · simpa using ih

end Sys2Proof.Laws
end

