-- ==== Sys2Proof/Laws/Ops.lean ====
section
/-! SUPPORT. The laws of the operations over the slots and the note map of a Bank: one lemma per operation that says
everything it can do. -/

namespace Sys2Proof.Laws

open Sys2Proof Sys2Proof.Machine

/-- Reading a mapped slot. -/
@[simp] theorem slotsMap_get (f : Option Voice → Option Voice) (sl : Vector (Option Voice) 25) (s : Fin 25) :
    (slotsMap f sl).get s = f (sl.get s) := by
  simp [slotsMap, Vector.get, Vector.toList]
  rfl

/-- Reading an empty pool. -/
@[simp] theorem slots_get_replicate (s : Fin 25) :
    (Vector.replicate 25 (none : Option Voice)).get s = none := by
  simp [Vector.get]

/-- Reading the slot just written. -/
@[simp] theorem slots_get_set (sl : Vector (Option Voice) 25) (s : Fin 25) (o : Option Voice) :
    (sl.set s.val o).get s = o := by
  simp only [Vector.get, Vector.set, Array.getElem_set]
  exact if_pos rfl

/-- Writing a slot leaves the others. -/
theorem slots_get_set_ne (sl : Vector (Option Voice) 25) (s r : Fin 25) (o : Option Voice) (h : r ≠ s) :
    (sl.set s.val o).get r = sl.get r := by
  have : s.val ≠ (r.cast (Eq.refl 25)).val := fun e => h (Fin.ext e.symm)
  simp only [Vector.get, Vector.set, Array.getElem_set]
  exact if_neg this

/-- `firstFree` answers the lowest empty slot, or none where there is none. -/
theorem firstFree_cases (sl : Vector (Option Voice) 25) :
    (firstFree sl = none ∧ ∀ s, sl.get s ≠ none) ∨
    (∃ s, firstFree sl = some s ∧ sl.get s = none ∧ ∀ r, r < s → sl.get r ≠ none) := by
  cases h : firstFree sl with
  | none =>
    refine Or.inl ⟨rfl, fun s hs => ?_⟩
    have := List.find?_eq_none.mp h s (List.mem_finRange s)
    simp [hs] at this
  | some s =>
    refine Or.inr ⟨s, rfl, ?_, ?_⟩
    · have := List.find?_some h
      simpa using this
    · intro r hr hn
      obtain ⟨_, as, bs, hab, hall⟩ := List.find?_eq_some_iff_append.mp h
      have hmem : r ∈ as ∨ r ∈ s :: bs := by
        have : r ∈ List.finRange 25 := List.mem_finRange r
        rw [hab] at this
        simpa using this
      have hsorted : List.Pairwise (· < ·) (as ++ s :: bs) := hab ▸ List.pairwise_lt_finRange 25
      rcases hmem with hm | hm
      · have := hall r hm
        simp [hn] at this
      · rcases List.mem_cons.mp hm with rfl | hm
        · exact absurd hr (lt_irrefl _)
        · have := (List.pairwise_append.mp hsorted).2.1
          have := (List.pairwise_cons.mp this).1 r hm
          exact absurd hr (not_lt.mpr this.le)

/-- Everything `bank_add` can do (41_actions R176): nothing, the key being held or the pool full; or a new voice in the lowest
empty slot, under its key. -/
theorem bankAdd_cases (c : Config) (off : Int) (vel : Num64) (B : Bank) :
    ((∃ s, KMap.get B.noteMap (off + c.a4) = some s) ∧ bankAdd c off vel B = B) ∨
    (KMap.get B.noteMap (off + c.a4) = none ∧ (∀ s, B.slots.get s ≠ none) ∧ bankAdd c off vel B = B) ∨
    (∃ s, KMap.get B.noteMap (off + c.a4) = none ∧ B.slots.get s = none ∧ (∀ r, r < s → B.slots.get r ≠ none) ∧
      bankAdd c off vel B =
        { B with
          slots := B.slots.set s.val (some { note := off, phase := c.voiceInit off, releasing := false, done := false })
          noteMap := KMap.put B.noteMap (off + c.a4) s }) := by
  unfold bankAdd
  cases hk : KMap.get B.noteMap (off + c.a4) with
  | some s => exact Or.inl ⟨⟨s, rfl⟩, by simp [hk]⟩
  | none =>
    rcases firstFree_cases B.slots with ⟨hf, hall⟩ | ⟨s, hf, hs, hlow⟩
    · exact Or.inr (Or.inl ⟨rfl, hall, by simp [hk, hf]⟩)
    · exact Or.inr (Or.inr ⟨s, rfl, hs, hlow, by simp [hk, hf]⟩)

/-- Everything `bank_remove` can do (41_actions R177): nothing, the key being unknown; or the key leaves the map and the slot
it named starts its release. -/
theorem bankRemove_cases (c : Config) (k : Int) (B : Bank) :
    (KMap.get B.noteMap k = none ∧ bankRemove c k B = B) ∨
    (∃ s, KMap.get B.noteMap k = some s ∧
      bankRemove c k B =
        { B with
          slots := B.slots.set s.val ((B.slots.get s).map (startRelease c))
          noteMap := KMap.erase B.noteMap k }) := by
  unfold bankRemove
  cases hk : KMap.get B.noteMap k with
  | none => exact Or.inl ⟨rfl, rfl⟩
  | some s => exact Or.inr ⟨s, rfl, rfl⟩

/-- What the prune leaves in a slot (43_mixer R231). -/
theorem bankPrune_slot (B : Bank) (s : Fin 25) :
    (bankPrune B).slots.get s = (match B.slots.get s with | none => none | some v => if v.done then none else some v) := by
  exact slotsMap_get _ B.slots s

/-- The voices of a pool without voices. -/
theorem voicesOf_empty (sl : Vector (Option Voice) 25) (h : ∀ s, sl.get s = none) : voicesOf sl = [] := by
  unfold voicesOf
  rw [List.filterMap_eq_nil_iff]
  intro o ho
  obtain ⟨i, hi, rfl⟩ := List.getElem_of_mem ho
  have := h ⟨i, by simpa using hi⟩
  simpa [Vector.get, Vector.toList] using this

/-- A pool of 25 slots holds at most 25 voices (10_state R46, R48). -/
theorem voicesOf_length_le (sl : Vector (Option Voice) 25) : (voicesOf sl).length ≤ 25 := by
  unfold voicesOf
  have := List.length_filterMap_le id sl.toList
  simpa using this

end Sys2Proof.Laws
end

