-- ==== Sys2Proof/Laws/Recorder.lean ====
section
/-! SUPPORT. The laws of the Recorder: one lemma per operation that says everything it can do, and what each registers
keeps. -/

namespace Sys2Proof.Laws

open Sys2Proof Sys2Proof.Machine

/-- An increment that is answered is the increment, and it fits; one that is not is the overflow (42_recorder R212). -/
theorem bumpTimestamp_ok (c : Config) (n m : Nat) :
    bumpTimestamp c n = .ok m ↔ c.tsFits (n + 1) = true ∧ m = n + 1 := by
  unfold bumpTimestamp
  split <;> rename_i h
  · simpa [h] using eq_comm
  · simp [h]

theorem bumpTimestamp_error (c : Config) (n : Nat) (f : Fault) :
    bumpTimestamp c n = .error f ↔ c.tsFits (n + 1) = false ∧ f = .timestampOverflow := by
  unfold bumpTimestamp
  split <;> rename_i h
  · simp [h]
  · simpa [h] using eq_comm

/-- The least width the spec admits holds a small counter, whatever TS_BITS is. -/
theorem tsFits_small (c : Config) (n : Nat) (h : n < 2 ^ 32) : c.tsFits n = true := by
  unfold Config.tsFits
  rw [decide_eq_true h, Bool.true_or]

/-- A counter that fits leaves every smaller one fitting. -/
theorem tsFits_mono (c : Config) (m n : Nat) (h : m ≤ n) (hn : c.tsFits n = true) : c.tsFits m = true := by
  unfold Config.tsFits at hn ⊢
  rcases Bool.or_eq_true_iff.mp hn with hn | hn
  · rw [decide_eq_true (lt_of_le_of_lt h (of_decide_eq_true hn)), Bool.true_or]
  · cases hx : c.tsBitsLess32 with
    | none => exact Bool.or_true _
    | some x =>
      rw [hx] at hn
      simp only [decide_eq_true (lt_of_le_of_lt h (of_decide_eq_true hn)), Bool.or_true]

/-! ## The edges (R201 to R203) -/

@[simp] theorem tickEdges_armed (arm : Bool) (R : Recorder) : (tickEdges arm R).armed = arm := rfl

/-- While armed, the edges change nothing but the copy of the argument. -/
theorem tickEdges_armed_armed (R : Recorder) (h : R.armed = true) : tickEdges true R = R := by
  obtain ⟨t, l, e, a, p⟩ := R
  simp_all [tickEdges, tickArm, tickDisarm]

/-- Idle to armed (R201): the counter, the events and the pause are cleared. -/
theorem tickEdges_arm (R : Recorder) (h : R.armed = false) :
    tickEdges true R = { timestamp := 0, loopLength := R.loopLength, events := [], armed := true, paused := false } := by
  simp [tickEdges, tickArm, tickDisarm, h]

/-- Armed to idle (R202): the loop's length is the counter, which restarts. -/
theorem tickEdges_disarm (R : Recorder) (h : R.armed = true) :
    tickEdges false R =
      { timestamp := 0, loopLength := R.timestamp, events := R.events, armed := false, paused := R.paused } := by
  simp [tickEdges, tickArm, tickDisarm, h]

/-- Idle and not to be armed: nothing. -/
theorem tickEdges_idle (R : Recorder) (h : R.armed = false) : tickEdges false R = R := by
  obtain ⟨t, l, e, a, p⟩ := R
  simp_all [tickEdges, tickArm, tickDisarm]

/-! ## Playback and the tick -/

/-- Everything playback can do at a timestamp (R205). -/
theorem playAt_cases (R : Recorder) :
    (∃ a, R.events ≠ [] ∧ KMap.get R.events R.timestamp = some a ∧ playAt R = (R, some a)) ∨
    (R.events ≠ [] ∧ KMap.get R.events R.timestamp = none ∧ R.loopLength ≤ R.timestamp ∧
      playAt R = ({ R with timestamp := 0 }, none)) ∨
    (R.events ≠ [] ∧ KMap.get R.events R.timestamp = none ∧ R.timestamp < R.loopLength ∧ playAt R = (R, none)) ∨
    (R.events = [] ∧ playAt R = (R, none)) := by
  unfold playAt
  by_cases he : R.events = []
  · simp [he]
  · have hl : ¬ R.events.length = 0 := by simpa using he
    cases hk : KMap.get R.events R.timestamp with
    | some a => simp [he]
    | none =>
      by_cases hw : R.loopLength ≤ R.timestamp
      · simp [he, hw]
      · simp [he, hw, not_le.mp hw]

/-- Everything a tick that is answered can have done (R200). -/
theorem tick_cases (c : Config) (arm : Bool) (R Q : Recorder) (r : Option Action) (h : tick c arm R = .ok (Q, r)) :
    (arm = false ∧ (tickEdges arm R).paused = true ∧ Q = tickEdges arm R ∧ r = none) ∨
    (arm = true ∧ c.tsFits ((tickEdges arm R).timestamp + 1) = true ∧
      Q = { tickEdges arm R with timestamp := (tickEdges arm R).timestamp + 1 } ∧ r = none) ∨
    (arm = false ∧ (tickEdges arm R).paused = false ∧ c.tsFits ((tickEdges arm R).timestamp + 1) = true ∧
      (Q, r) = playAt { tickEdges arm R with timestamp := (tickEdges arm R).timestamp + 1 }) := by
  unfold tick at h
  simp only [Bool.and_eq_true, Bool.not_eq_true'] at h
  split at h
  · rename_i hp
    cases h
    exact Or.inl ⟨hp.1, hp.2, rfl, rfl⟩
  · rename_i hp
    cases hb : bumpTimestamp c (tickEdges arm R).timestamp with
    | error f => simp [hb] at h
    | ok n =>
      obtain ⟨hf, rfl⟩ := (bumpTimestamp_ok c _ _).mp hb
      cases arm with
      | true => simp [hb] at h; exact Or.inr (Or.inl ⟨rfl, hf, h.1.symm, h.2.symm⟩)
      | false =>
        simp [hb] at h
        simp only [true_and, Bool.not_eq_true] at hp
        exact Or.inr (Or.inr ⟨rfl, hp, hf, h.symm⟩)

/-- When a tick faults, and with what (R212). -/
theorem tick_error (c : Config) (arm : Bool) (R : Recorder) (f : Fault) :
    tick c arm R = .error f ↔
      f = .timestampOverflow ∧ c.tsFits ((tickEdges arm R).timestamp + 1) = false ∧
        ¬ (arm = false ∧ (tickEdges arm R).paused = true) := by
  unfold tick
  simp only [Bool.and_eq_true, Bool.not_eq_true']
  split
  · rename_i hp
    exact ⟨fun h => by simp at h, fun h => absurd hp h.2.2⟩
  · rename_i hp
    cases hb : bumpTimestamp c (tickEdges arm R).timestamp with
    | error g =>
      obtain ⟨hf, rfl⟩ := (bumpTimestamp_error c _ _).mp hb
      simp only [Except.error.injEq]
      exact ⟨fun h => ⟨h.symm, hf, hp⟩, fun h => h.1.symm⟩
    | ok n =>
      obtain ⟨hf, rfl⟩ := (bumpTimestamp_ok c _ _).mp hb
      cases arm <;> simp [hf]

/-- What every tick leaves: the armed flag is the argument, and the events are those after the edges (R203, 20_memory R78). -/
theorem tick_keeps (c : Config) (arm : Bool) (R Q : Recorder) (r : Option Action) (h : tick c arm R = .ok (Q, r)) :
    Q.armed = arm ∧ Q.events = (tickEdges arm R).events ∧ Q.loopLength = (tickEdges arm R).loopLength ∧
      Q.paused = (tickEdges arm R).paused := by
  rcases tick_cases c arm R Q r h with ⟨_, _, rfl, _⟩ | ⟨_, _, rfl, _⟩ | ⟨_, _, _, hq⟩
  · simp
  · simp
  · rcases playAt_cases { tickEdges arm R with timestamp := (tickEdges arm R).timestamp + 1 } with
      ⟨a, _, _, hp⟩ | ⟨_, _, _, hp⟩ | ⟨_, _, _, hp⟩ | ⟨_, hp⟩ <;>
    · rw [hp] at hq
      cases hq
      simp

/-- An action a tick returns is an event of its loop, and the tick was not armed (R207). -/
theorem tick_returns (c : Config) (arm : Bool) (R Q : Recorder) (a : Action) (h : tick c arm R = .ok (Q, some a)) :
    arm = false ∧ KMap.get Q.events Q.timestamp = some a := by
  rcases tick_cases c arm R Q (some a) h with ⟨_, _, _, hr⟩ | ⟨_, _, _, hr⟩ | ⟨ha, _, _, hq⟩
  · simp at hr
  · simp at hr
  · refine ⟨ha, ?_⟩
    rcases playAt_cases { tickEdges arm R with timestamp := (tickEdges arm R).timestamp + 1 } with
      ⟨b, _, hk, hp⟩ | ⟨_, _, _, hp⟩ | ⟨_, _, _, hp⟩ | ⟨_, hp⟩
    · rw [hp] at hq
      cases hq
      exact hk
    · rw [hp] at hq; simp at hq
    · rw [hp] at hq; simp at hq
    · rw [hp] at hq; simp at hq

/-! ## record, pause_toggle, stop -/

/-- Everything `record` can do (R208). -/
theorem record_cases (c : Config) (a : Action) (R : Recorder) :
    ∃ n, n = (if R.events = [] then 1 else R.timestamp) ∧
      ((R.events.length < c.maxRecording ∧
          record c a R = { R with timestamp := n, events := KMap.put R.events n a }) ∨
       (c.maxRecording ≤ R.events.length ∧ record c a R = { R with timestamp := n })) := by
  obtain ⟨t, l, e, ar, p⟩ := R
  refine ⟨_, rfl, ?_⟩
  by_cases he : e = []
  · by_cases hc : e.length < c.maxRecording
    · left; subst he; simp_all [record]
    · right; subst he; simp_all [record]
  · have : ¬ e.length = 0 := by simpa using he
    by_cases hc : e.length < c.maxRecording
    · left; simp [record, he, hc]
    · right; simp [record, he, hc, not_lt.mp hc]

/-- What `record` leaves. -/
theorem record_keeps (c : Config) (a : Action) (R : Recorder) :
    (record c a R).loopLength = R.loopLength ∧ (record c a R).armed = R.armed ∧ (record c a R).paused = R.paused := by
  obtain ⟨n, _, h | h⟩ := record_cases c a R <;> rw [h.2] <;> simp

/-- `pause_toggle` (R210): the flag flips where the Recorder is not armed. -/
theorem pauseToggle_eq (R : Recorder) :
    pauseToggle R = { R with paused := if R.armed then R.paused else !R.paused } := by
  obtain ⟨t, l, e, a, p⟩ := R
  cases a <;> simp [pauseToggle]

end Sys2Proof.Laws
end

