-- ==== Sys2Proof/Laws/State.lean ====
section
/-! SUPPORT. One lemma per field per named update of the state, so that no proof unfolds a record update. -/

namespace Sys2Proof.Laws

open Sys2Proof Sys2Proof.Machine

/-! ## State -/

@[simp] theorem setLayer_selLayer (s : State) (l : Fin 4) (L : Layer) : (s.setLayer l L).selLayer = s.selLayer := rfl
@[simp] theorem setLayer_masterAmp (s : State) (l : Fin 4) (L : Layer) : (s.setLayer l L).masterAmp = s.masterAmp := rfl
@[simp] theorem setLayer_powerOff (s : State) (l : Fin 4) (L : Layer) : (s.setLayer l L).powerOff = s.powerOff := rfl
@[simp] theorem setLayer_layer (s : State) (l : Fin 4) (L : Layer) : (s.setLayer l L).layer = s.layer.set l L := rfl
@[simp] theorem setLayer_refusalMark (s : State) (l : Fin 4) (L : Layer) : (s.setLayer l L).refusalMark = s.refusalMark := rfl
@[simp] theorem setLayer_faultRecord (s : State) (l : Fin 4) (L : Layer) : (s.setLayer l L).faultRecord = s.faultRecord := rfl
@[simp] theorem setLayer_stream (s : State) (l : Fin 4) (L : Layer) : (s.setLayer l L).stream = s.stream := rfl
@[simp] theorem setLayer_audioOut (s : State) (l : Fin 4) (L : Layer) : (s.setLayer l L).audioOut = s.audioOut := rfl
@[simp] theorem setLayer_freeDraws (s : State) (l : Fin 4) (L : Layer) : (s.setLayer l L).freeDraws = s.freeDraws := rfl

@[simp] theorem consume_selLayer (rest : List Txn) (s : State) : (consume rest s).selLayer = s.selLayer := rfl
@[simp] theorem consume_masterAmp (rest : List Txn) (s : State) : (consume rest s).masterAmp = s.masterAmp := rfl
@[simp] theorem consume_powerOff (rest : List Txn) (s : State) : (consume rest s).powerOff = s.powerOff := rfl
@[simp] theorem consume_layer (rest : List Txn) (s : State) : (consume rest s).layer = s.layer := rfl
@[simp] theorem consume_refusalMark (rest : List Txn) (s : State) : (consume rest s).refusalMark = s.refusalMark := rfl
@[simp] theorem consume_faultRecord (rest : List Txn) (s : State) : (consume rest s).faultRecord = s.faultRecord := rfl
@[simp] theorem consume_stream (rest : List Txn) (s : State) : (consume rest s).stream = rest := rfl
@[simp] theorem consume_audioOut (rest : List Txn) (s : State) : (consume rest s).audioOut = s.audioOut := rfl
@[simp] theorem consume_freeDraws (rest : List Txn) (s : State) : (consume rest s).freeDraws = s.freeDraws + 1 := rfl

@[simp] theorem place_selLayer (t : Txn) (s : State) : (place t s).selLayer = s.selLayer := rfl
@[simp] theorem place_masterAmp (t : Txn) (s : State) : (place t s).masterAmp = s.masterAmp := rfl
@[simp] theorem place_powerOff (t : Txn) (s : State) : (place t s).powerOff = s.powerOff := rfl
@[simp] theorem place_layer (t : Txn) (s : State) : (place t s).layer = s.layer := rfl
@[simp] theorem place_refusalMark (t : Txn) (s : State) : (place t s).refusalMark = none := rfl
@[simp] theorem place_faultRecord (t : Txn) (s : State) : (place t s).faultRecord = none := rfl
@[simp] theorem place_stream (t : Txn) (s : State) : (place t s).stream = t :: s.stream := rfl
@[simp] theorem place_audioOut (t : Txn) (s : State) : (place t s).audioOut = s.audioOut := rfl
@[simp] theorem place_freeDraws (t : Txn) (s : State) : (place t s).freeDraws = s.freeDraws := rfl

@[simp] theorem setPowerOff_selLayer (s : State) : (setPowerOff s).selLayer = s.selLayer := rfl
@[simp] theorem setPowerOff_masterAmp (s : State) : (setPowerOff s).masterAmp = s.masterAmp := rfl
@[simp] theorem setPowerOff_powerOff (s : State) : (setPowerOff s).powerOff = true := rfl
@[simp] theorem setPowerOff_layer (s : State) : (setPowerOff s).layer = s.layer := rfl
@[simp] theorem setPowerOff_refusalMark (s : State) : (setPowerOff s).refusalMark = s.refusalMark := rfl
@[simp] theorem setPowerOff_faultRecord (s : State) : (setPowerOff s).faultRecord = s.faultRecord := rfl
@[simp] theorem setPowerOff_stream (s : State) : (setPowerOff s).stream = s.stream := rfl
@[simp] theorem setPowerOff_audioOut (s : State) : (setPowerOff s).audioOut = s.audioOut := rfl
@[simp] theorem setPowerOff_freeDraws (s : State) : (setPowerOff s).freeDraws = s.freeDraws := rfl

/-- Reading a Layer after writing it. -/
@[simp] theorem setLayer_get (s : State) (l : Fin 4) (L : Layer) : (s.setLayer l L).layer.get l = L := by simp

/-- Writing one Layer leaves the others. -/
theorem setLayer_get_ne (s : State) (l k : Fin 4) (L : Layer) (h : k ≠ l) :
    (s.setLayer l L).layer.get k = s.layer.get k := by
  simp [quad_get_set_ne _ _ _ _ h]

/-- A state with no stop recorded is not stopped, and conversely. -/
theorem stoppedBy_none (s : State) : stoppedBy s = none ↔ s.refusalMark = none ∧ s.faultRecord = none := by
  unfold stoppedBy
  cases s.refusalMark <;> cases s.faultRecord <;> simp

/-- A state with a transaction placed in it is not stopped. -/
@[simp] theorem stoppedBy_place (t : Txn) (s : State) : stoppedBy (place t s) = none := rfl

/-! ## Layer -/

@[simp] theorem onBank_mute (L : Layer) (b : Fin 4) (f : Bank → Bank) : (L.onBank b f).mute = L.mute := rfl
@[simp] theorem onBank_layerAmp (L : Layer) (b : Fin 4) (f : Bank → Bank) : (L.onBank b f).layerAmp = L.layerAmp := rfl
@[simp] theorem onBank_selBank (L : Layer) (b : Fin 4) (f : Bank → Bank) : (L.onBank b f).selBank = L.selBank := rfl
@[simp] theorem onBank_recording (L : Layer) (b : Fin 4) (f : Bank → Bank) : (L.onBank b f).recording = L.recording := rfl
@[simp] theorem onBank_presses (L : Layer) (b : Fin 4) (f : Bank → Bank) : (L.onBank b f).presses = L.presses := rfl
@[simp] theorem onBank_recorder (L : Layer) (b : Fin 4) (f : Bank → Bank) : (L.onBank b f).recorder = L.recorder := rfl
@[simp] theorem onBank_bank (L : Layer) (b : Fin 4) (f : Bank → Bank) : (L.onBank b f).bank = L.bank.set b (f (L.bank.get b)) := rfl

@[simp] theorem onParams_mute (L : Layer) (b : Fin 4) (f : Params → Params) : (L.onParams b f).mute = L.mute := rfl
@[simp] theorem onParams_layerAmp (L : Layer) (b : Fin 4) (f : Params → Params) : (L.onParams b f).layerAmp = L.layerAmp := rfl
@[simp] theorem onParams_selBank (L : Layer) (b : Fin 4) (f : Params → Params) : (L.onParams b f).selBank = L.selBank := rfl
@[simp] theorem onParams_recording (L : Layer) (b : Fin 4) (f : Params → Params) : (L.onParams b f).recording = L.recording := rfl
@[simp] theorem onParams_presses (L : Layer) (b : Fin 4) (f : Params → Params) : (L.onParams b f).presses = L.presses := rfl
@[simp] theorem onParams_recorder (L : Layer) (b : Fin 4) (f : Params → Params) : (L.onParams b f).recorder = L.recorder := rfl

@[simp] theorem toggleMute_mute (b : Fin 4) (L : Layer) : (toggleMute b L).mute = L.mute.set b (!L.mute.get b) := rfl
@[simp] theorem toggleMute_layerAmp (b : Fin 4) (L : Layer) : (toggleMute b L).layerAmp = L.layerAmp := rfl
@[simp] theorem toggleMute_selBank (b : Fin 4) (L : Layer) : (toggleMute b L).selBank = L.selBank := rfl
@[simp] theorem toggleMute_recording (b : Fin 4) (L : Layer) : (toggleMute b L).recording = L.recording := rfl
@[simp] theorem toggleMute_presses (b : Fin 4) (L : Layer) : (toggleMute b L).presses = L.presses := rfl
@[simp] theorem toggleMute_recorder (b : Fin 4) (L : Layer) : (toggleMute b L).recorder = L.recorder := rfl
@[simp] theorem toggleMute_bank (b : Fin 4) (L : Layer) : (toggleMute b L).bank = L.bank := rfl

@[simp] theorem toggleRecording_mute (L : Layer) : (toggleRecording L).mute = L.mute := rfl
@[simp] theorem toggleRecording_layerAmp (L : Layer) : (toggleRecording L).layerAmp = L.layerAmp := rfl
@[simp] theorem toggleRecording_selBank (L : Layer) : (toggleRecording L).selBank = L.selBank := rfl
@[simp] theorem toggleRecording_recording (L : Layer) : (toggleRecording L).recording = !L.recording := rfl
@[simp] theorem toggleRecording_presses (L : Layer) : (toggleRecording L).presses = L.presses := rfl
@[simp] theorem toggleRecording_recorder (L : Layer) : (toggleRecording L).recorder = L.recorder := rfl
@[simp] theorem toggleRecording_bank (L : Layer) : (toggleRecording L).bank = L.bank := rfl

@[simp] theorem layerRecPause_mute (L : Layer) : (layerRecPause L).mute = L.mute := rfl
@[simp] theorem layerRecPause_layerAmp (L : Layer) : (layerRecPause L).layerAmp = L.layerAmp := rfl
@[simp] theorem layerRecPause_selBank (L : Layer) : (layerRecPause L).selBank = L.selBank := rfl
@[simp] theorem layerRecPause_recording (L : Layer) : (layerRecPause L).recording = L.recording := rfl
@[simp] theorem layerRecPause_presses (L : Layer) : (layerRecPause L).presses = L.presses := rfl
@[simp] theorem layerRecPause_recorder (L : Layer) : (layerRecPause L).recorder = pauseToggle L.recorder := rfl
@[simp] theorem layerRecPause_bank (L : Layer) : (layerRecPause L).bank = L.bank := rfl

@[simp] theorem layerRecStop_mute (c : Config) (L : Layer) : (layerRecStop c L).mute = L.mute := rfl
@[simp] theorem layerRecStop_layerAmp (c : Config) (L : Layer) : (layerRecStop c L).layerAmp = L.layerAmp := rfl
@[simp] theorem layerRecStop_selBank (c : Config) (L : Layer) : (layerRecStop c L).selBank = L.selBank := rfl
@[simp] theorem layerRecStop_recording (c : Config) (L : Layer) : (layerRecStop c L).recording = false := rfl
@[simp] theorem layerRecStop_presses (c : Config) (L : Layer) : (layerRecStop c L).presses = !L.presses := rfl
@[simp] theorem layerRecStop_recorder (c : Config) (L : Layer) : (layerRecStop c L).recorder = stopRecorder L.recorder := rfl

/-- The Bank that a parameter setter writes: its parameters through the setter, its slots and its note map as they were. -/
@[simp] theorem onParams_get (L : Layer) (b : Fin 4) (f : Params → Params) :
    (L.onParams b f).bank.get b = { L.bank.get b with params := f (L.bank.get b).params } := by
  simp [Layer.onParams]

/-- The other Banks of a parameter setter. -/
theorem onParams_get_ne (L : Layer) (b k : Fin 4) (f : Params → Params) (h : k ≠ b) :
    (L.onParams b f).bank.get k = L.bank.get k := by
  simp [Layer.onParams, quad_get_set_ne _ _ _ _ h]

/-- Clearing the press counter touches nothing else. -/
theorem clearPresses_eq (a : Action) (L : Layer) :
    clearPresses a L = { L with presses := if isRecStop a then L.presses else false } := by
  unfold clearPresses
  split <;> simp_all

@[simp] theorem clearPresses_mute (a : Action) (L : Layer) : (clearPresses a L).mute = L.mute := by
  rw [clearPresses_eq]
@[simp] theorem clearPresses_layerAmp (a : Action) (L : Layer) : (clearPresses a L).layerAmp = L.layerAmp := by
  rw [clearPresses_eq]
@[simp] theorem clearPresses_selBank (a : Action) (L : Layer) : (clearPresses a L).selBank = L.selBank := by
  rw [clearPresses_eq]
@[simp] theorem clearPresses_recording (a : Action) (L : Layer) : (clearPresses a L).recording = L.recording := by
  rw [clearPresses_eq]
@[simp] theorem clearPresses_recorder (a : Action) (L : Layer) : (clearPresses a L).recorder = L.recorder := by
  rw [clearPresses_eq]
@[simp] theorem clearPresses_bank (a : Action) (L : Layer) : (clearPresses a L).bank = L.bank := by
  rw [clearPresses_eq]

/-- The press counter after it is cleared (41_actions R151). -/
theorem clearPresses_presses (a : Action) (L : Layer) :
    (clearPresses a L).presses = (if isRecStop a then L.presses else false) := by
  rw [clearPresses_eq]

/-- The Banks after button 0 (41_actions R158): without voices, and with the factory parameters on a second press. -/
theorem layerRecStop_get (c : Config) (L : Layer) (b : Fin 4) :
    (layerRecStop c L).bank.get b =
      { params := if L.presses then c.factoryBank else (L.bank.get b).params
        slots := Vector.replicate 25 none
        noteMap := [] } := by
  simp only [layerRecStop]
  split <;> simp [bankClearVoices, bankFactoryReset]

end Sys2Proof.Laws
end

