-- ==== Sys2Proof/Laws/Router.lean ====
section
/-! SUPPORT. The laws of the Router: what the params stand for, what a Layer's dispatch can do whatever the action, and
exec of every row as the Router's dispatch of its action. -/

namespace Sys2Proof.Laws

open Sys2Proof Sys2Proof.Machine Sys2Proof.Safety

/-! ## Params -/

/-- An index param is the number of the index. -/
theorem index4_some (p : Int) (k : Fin 4) : index4 p = some k ↔ p = (k.val : Int) := by
  unfold index4
  constructor
  · intro h
    split at h
    · cases h; assumption
    · split at h
      · cases h; assumption
      · split at h
        · cases h; assumption
        · split at h
          · cases h; assumption
          · cases h
  · rintro rfl
    fin_cases k <;> rfl

/-- The number of an index is its param. -/
@[simp] theorem index4_val (k : Fin 4) : index4 (k.val : Int) = some k := (index4_some _ _).mpr rfl

/-- A controller index is one of the four (30_encoding R97). -/
@[simp] theorem index4_controllerIndex (idx : BitVec 2) : index4 (controllerIndex idx) = some idx.toFin :=
  (index4_some _ _).mpr rfl

/-- The target of -1 is the selected Bank (41_actions R153). -/
@[simp] theorem bankTarget_selected (L : Layer) : bankTarget L (-1) = some L.selBank := rfl

/-- The target of a carried index is that Bank (R153). -/
@[simp] theorem bankTarget_val (L : Layer) (k : Fin 4) : bankTarget L (k.val : Int) = some k := by
  unfold bankTarget
  rw [if_neg (by omega), index4_val]

@[simp] theorem bankTarget_controllerIndex (L : Layer) (idx : BitVec 2) :
    bankTarget L (controllerIndex idx) = some idx.toFin := bankTarget_val L idx.toFin

/-- A Bank param that is well formed has a target (30_encoding R101). -/
theorem bankTarget_isSome (L : Layer) (p : Int) (h : isBankParam p = true) : ∃ b, bankTarget L p = some b := by
  unfold isBankParam at h
  unfold bankTarget
  by_cases hp : p = -1
  · exact ⟨L.selBank, if_pos hp⟩
  · simp only [hp, decide_false, Bool.false_or] at h
    obtain ⟨b, hb⟩ := Option.isSome_iff_exists.mp h
    exact ⟨b, by rw [if_neg hp, hb]⟩

/-- The params of the messages fit the bus, whatever PARAM_BITS and MIDI_TO_A4 (60_exceptions R261). -/
theorem paramFits_small (c : Config) (p : Int) (h : -128 ≤ p ∧ p < 128) : c.paramFits p = true := by
  unfold Config.paramFits fitsSigned
  rw [decide_eq_true (by simpa using h), Bool.true_or]

/-! ## The Layer's dispatch -/

/-- What a Layer's dispatch faults on (41_actions R169). -/
theorem layerApply_error (c : Config) (d : Nat) (a : Action) (live : Bool) (L : Layer) (f : Fault) :
    layerApply c d a live L = .error f ↔
      a.code = .oscOctave ∧ f = .octaveOverflow ∧
        c.octFits ((L.bank.get L.selBank).params.octave + c.num.trunc a.value) = false := by
  unfold layerApply
  cases hc : a.code <;> simp only [reduceCtorEq, false_and]
  simp only [layerOctave, clearPresses_bank, clearPresses_selBank, true_and]
  split
  · rename_i h
    simp [h]
  · rename_i h
    simpa [h] using eq_comm

/-- A replayed or live note action is dispatched to the Banks (R161, R162). -/
theorem layerApply_note (c : Config) (d : Nat) (a : Action) (live : Bool) (L : Layer) (h : isNoteAction a = true) :
    layerApply c d a live L =
      .ok (if a.code = .addNote then layerAddNote c a live (clearPresses a L)
        else layerRemoveNote c a live (clearPresses a L)) := by
  unfold isNoteAction at h
  unfold layerApply
  rcases Bool.or_eq_true_iff.mp h with h | h <;> have h := of_decide_eq_true h <;> simp [h]

/-- The capture touches the Recorder only (R157). -/
theorem capture_eq (c : Config) (a : Action) (live : Bool) (L : Layer) :
    capture c a live L = { L with recorder := if live && L.recording then record c a L.recorder else L.recorder } := by
  unfold capture
  split <;> simp_all

/-- The press counter after a Layer's dispatch (R151, R158). -/
theorem layerApply_presses (c : Config) (d : Nat) (a : Action) (live : Bool) (L M : Layer)
    (h : layerApply c d a live L = .ok M) : M.presses = (if isRecStop a then !L.presses else false) := by
  unfold layerApply at h
  cases hc : a.code <;> simp only [hc] at h
  case oscOctave =>
    simp only [layerOctave] at h
    split at h
    · cases h
      simp [clearPresses_presses, isRecStop, hc]
    · cases h
  case layerRec =>
    cases h
    by_cases h0 : a.param = 0
    · simp [layerRec, h0, clearPresses_presses, isRecStop, hc]
    · simp only [layerRec, h0, if_false]
      split
      · simp [clearPresses_presses, isRecStop, hc, h0]
      · split <;> simp [clearPresses_presses, isRecStop, hc, h0]
  all_goals
    cases h
    have hr : isRecStop a = false := by simp [isRecStop, hc]
    rw [hr]
    try simp only [layerAddNote, layerRemoveNote, capture_eq, layerOscSelect, layerMute, onTarget, layerModSelect,
      layerEnvelope, layerLfo, Bool.false_eq_true, if_false]
    repeat' split
    all_goals simp_all [clearPresses_presses]

/-! ## exec -/

/-- A row of the messages applies the action it derives, or does nothing. -/
theorem exec_message (i : Instr) (s : State) (h : isMessage i = true) :
    exec i s = (match busAction Config.chip i with | none => .next s | some a => dispatchAction Config.chip a s) := by
  cases i <;> first
    | exact Bool.noConfusion (show false = true from h)
    | rfl
    | (simp only [exec, execCcLayerSelect, execCcLayerRecStop, execCcLayerRecPause, execCcLayerRecRecord, execCcPower,
        execCcOscSelect, execCcOscMute, execCcOscType, execCcOctaveDown, execCcOctaveUp, execCcModAmp, execCcModPitch,
        execCcModFilter, applyButton, busAction]
       split <;> rfl)

/-- A row of the bus applies its action. -/
theorem exec_action (i : Instr) (s : State) (h : isMessage i = false) (hb : i ≠ .buf) :
    ∃ a, busAction Config.chip i = some a ∧ exec i s = applyAction Config.chip a s := by
  cases i <;> first
    | exact Bool.noConfusion (show true = false from h)
    | exact absurd rfl hb
    | exact ⟨_, rfl, rfl⟩

/-! ## What a transaction that is answered has done -/

/-- A Layer's dispatch in the state is answered where the Layer's is, and it is never refused. -/
theorem applyToLayer_next (c : Config) (l : Fin 4) (a : Action) (s t : State) :
    applyToLayer c l a s = .next t ↔
      ∃ L, layerApply c s.freeDraws a true (s.layer.get l) = .ok L ∧ t = s.setLayer l L := by
  unfold applyToLayer
  cases layerApply c s.freeDraws a true (s.layer.get l) <;> simp [eq_comm]

theorem applyToLayer_fault (c : Config) (l : Fin 4) (a : Action) (s : State) (f : Fault) :
    applyToLayer c l a s = .fault f ↔ layerApply c s.freeDraws a true (s.layer.get l) = .error f := by
  unfold applyToLayer
  cases layerApply c s.freeDraws a true (s.layer.get l) <;> simp

theorem applyToLayer_refused (c : Config) (l : Fin 4) (a : Action) (s : State) (r : Refusal) :
    applyToLayer c l a s ≠ .refused r := by
  unfold applyToLayer
  cases layerApply c s.freeDraws a true (s.layer.get l) <;> simp

/-- Everything the Synth's dispatch can do where it is answered (41_actions R150). -/
theorem dispatchAction_next (c : Config) (a : Action) (s t : State) (h : dispatchAction c a s = .next t) :
    (a.code = .masterVol ∧ t = { s with masterAmp := a.value }) ∨
    (a.code = .layerSelect ∧ ∃ l, index4 a.param = some l ∧ t = { s with selLayer := l }) ∨
    (a.code = .power ∧ t = setPowerOff s) ∨
    (∃ l L, processedBy s a = some l ∧ layerApply c s.freeDraws a true (s.layer.get l) = .ok L ∧
      t = s.setLayer l L) := by
  unfold dispatchAction at h
  unfold processedBy
  split at h
  · cases h; rename_i hc; exact Or.inl ⟨hc, rfl⟩
  · rename_i hc
    split at h
    · cases h; exact Or.inr (Or.inl ⟨hc, _, by assumption, rfl⟩)
    · cases h
  · rename_i hc
    split at h
    · rename_i l hl
      obtain ⟨L, h1, h2⟩ := (applyToLayer_next _ _ _ _ _).mp h
      exact Or.inr (Or.inr (Or.inr ⟨l, L, by simp [hc, hl], h1, h2⟩))
    · cases h
  · cases h; rename_i hc; exact Or.inr (Or.inr (Or.inl ⟨hc, rfl⟩))
  · rename_i h1 h2 h3 h4
    obtain ⟨L, g1, g2⟩ := (applyToLayer_next _ _ _ _ _).mp h
    refine Or.inr (Or.inr (Or.inr ⟨s.selLayer, L, ?_, g1, g2⟩))
    cases hc : a.code <;> simp_all

/-- An instruction other than BUF that is answered had no action, or its action was dispatched. -/
theorem exec_next (i : Instr) (s t : State) (hb : i ≠ .buf) (h : exec i s = .next t) :
    (busAction Config.chip i = none ∧ t = s) ∨
    ∃ a, busAction Config.chip i = some a ∧ dispatchAction Config.chip a s = .next t := by
  cases hm : isMessage i with
  | true =>
    rw [exec_message i s hm] at h
    cases ha : busAction Config.chip i with
    | none => rw [ha] at h; cases h; exact Or.inl ⟨rfl, rfl⟩
    | some a => rw [ha] at h; exact Or.inr ⟨a, rfl, h⟩
  | false =>
    obtain ⟨a, ha, he⟩ := exec_action i s hm hb
    rw [he] at h
    unfold applyAction at h
    split at h
    · exact Or.inr ⟨a, ha, h⟩
    · cases h

end Sys2Proof.Laws
end

