-- ==== Sys2Proof/Laws/Invariant.lean ====
section
/-! SUPPORT. Every operation keeps the invariant of what it works on: the maps' canonical form, the note map's agreement
with the slots, the bounds of the cutoff and the octave, the Recorder's capacity and counters. -/

namespace Sys2Proof.Laws

open Sys2Proof Sys2Proof.Machine Sys2Proof.Safety

/-! ## Order of Num -/

/-- A value that is no NaN is in order with itself. -/
theorem le_self (n : NumType) (x : Num64) (h : n.isNaN x = false) : n.le x x = true :=
  n.le_of_not_lt x x h h (n.lt_irrefl x)

/-- A value in an interval is what `within` checks. -/
theorem within_iff (n : NumType) (lo hi x : Num64) : n.within lo hi x = true ↔ n.le lo x = true ∧ n.le x hi = true := by
  simp [NumType.within]

/-- A clamped value lies in its interval (43_mixer R241, 41_actions R174). -/
theorem clamp_bounds (n : NumType) (lo hi x : Num64) (h : n.lt lo hi = true) (hx : n.isNaN x = false) :
    n.le lo (n.clamp lo hi x) = true ∧ n.le (n.clamp lo hi x) hi = true := by
  obtain ⟨hlo, hhi⟩ := n.lt_notNaN lo hi h
  unfold NumType.clamp
  split
  · exact ⟨le_self n lo hlo, n.le_of_lt _ _ h⟩
  · rename_i h1
    split
    · exact ⟨n.le_of_lt _ _ h, le_self n hi hhi⟩
    · rename_i h2
      exact ⟨n.le_of_not_lt _ _ hx hlo (Bool.eq_false_iff.mpr h1), n.le_of_not_lt _ _ hhi hx (Bool.eq_false_iff.mpr h2)⟩

/-- A parameter with a bound is above it and finite, whatever its raw value. -/
theorem finiteAbove_bounds (n : NumType) (bound fallback raw : Num64) (h : n.lt bound fallback = true)
    (hf : n.isFinite fallback = true) :
    n.lt bound (n.finiteAbove bound fallback raw) = true ∧ n.isFinite (n.finiteAbove bound fallback raw) = true := by
  unfold NumType.finiteAbove
  split
  · rename_i hr
    exact Bool.and_eq_true_iff.mp hr
  · exact ⟨h, hf⟩

/-- `MAX_CUTOFF` is above `MIN_CUTOFF` and finite (00_scope R6, 60_exceptions R275). -/
theorem maxCutoff_bounds (c : Config) : c.num.lt c.minCutoff c.maxCutoff = true ∧ c.num.isFinite c.maxCutoff = true :=
  finiteAbove_bounds _ _ _ _ c.num.hundred_lt_twenty_thousand c.num.twenty_thousand_finite

theorem minCutoff_lt_maxCutoff (c : Config) : c.num.lt c.minCutoff c.maxCutoff = true := (maxCutoff_bounds c).1

/-- `LFO_SPEED_MAX_HZ` is above 0 and finite (00_scope R6, 60_exceptions R275). -/
theorem lfoSpeedMax_bounds (c : Config) : c.num.lt c.num.zero c.lfoSpeedMax = true ∧ c.num.isFinite c.lfoSpeedMax = true :=
  finiteAbove_bounds _ _ _ _ c.num.zero_lt_twenty c.num.twenty_finite

theorem minCutoff_le_self (c : Config) : c.num.le c.minCutoff c.minCutoff = true :=
  le_self _ _ (c.num.lt_notNaN _ _ (minCutoff_lt_maxCutoff c)).1

theorem maxCutoff_le_self (c : Config) : c.num.le c.maxCutoff c.maxCutoff = true :=
  le_self _ _ (c.num.lt_notNaN _ _ (minCutoff_lt_maxCutoff c)).2

theorem minCutoff_le_maxCutoff (c : Config) : c.num.le c.minCutoff c.maxCutoff = true :=
  c.num.le_of_lt _ _ (minCutoff_lt_maxCutoff c)

/-- The free value of a NaN cutoff lies in the interval (10_state R41). -/
theorem nanCutoff_bounds (c : Config) (d : Nat) :
    c.num.le c.minCutoff (c.nanCutoff d) = true ∧ c.num.le (c.nanCutoff d) c.maxCutoff = true := by
  unfold Config.nanCutoff
  split
  · rename_i h
    exact (within_iff _ _ _ _).mp h
  · exact ⟨minCutoff_le_self c, minCutoff_le_maxCutoff c⟩

/-- The clamped cutoff lies in the interval, whatever its operand (41_actions R174). -/
theorem clampCutoff_bounds (c : Config) (d : Nat) (x : Num64) :
    c.num.le c.minCutoff (clampCutoff c d x) = true ∧ c.num.le (clampCutoff c d x) c.maxCutoff = true := by
  unfold clampCutoff
  split
  · exact nanCutoff_bounds c d
  · rename_i hx
    exact clamp_bounds _ _ _ _ (minCutoff_lt_maxCutoff c) (Bool.eq_false_iff.mpr hx)

/-- The free value of a NaN sample lies in `[-1, 1]` (93 X17). -/
theorem nanSample_bounds (c : Config) (d k : Nat) :
    c.num.le c.num.negOne (c.nanSample d k) = true ∧ c.num.le (c.nanSample d k) c.num.one = true := by
  unfold Config.nanSample
  split
  · rename_i h
    exact (within_iff _ _ _ _).mp h
  · exact ⟨c.num.le_of_lt _ _ c.num.minus_one_lt_one, le_self _ _ (c.num.lt_notNaN _ _ c.num.minus_one_lt_one).2⟩

/-- A gain with the constraint of 70_reset R292 is not 0. -/
theorem nonzeroGain_isZero (c : Config) (x : Num64) : c.num.isZero (c.nonzeroGain x) = false := by
  unfold Config.nonzeroGain
  split
  · exact c.num.one_not_zero
  · rename_i h
    exact Bool.eq_false_iff.mpr h

/-! ## Bank -/

/-- A parameter block within the invariant's bounds. -/
structure ParamsInv (c : Config) (P : Params) : Prop where
  cutoffLow : c.num.le c.minCutoff P.cutoffHz = true
  cutoffHigh : c.num.le P.cutoffHz c.maxCutoff = true
  octave : c.octFits P.octave = true

/-- The invariant of a Bank is that of its voices and its map, and that of its parameters. -/
theorem bankInv_params (c : Config) (B : Bank) (h : BankInv c B) : ParamsInv c B.params :=
  ⟨h.cutoffLow, h.cutoffHigh, h.octave⟩

/-- New parameters within bounds keep the invariant. -/
theorem bankInv_withParams (c : Config) (B : Bank) (P : Params) (h : BankInv c B) (hP : ParamsInv c P) :
    BankInv c { B with params := P } :=
  ⟨h.mapForm, h.keyNamesLive, h.liveNamed, h.doneReleasing, hP.cutoffLow, hP.cutoffHigh, hP.octave⟩

/-- The factory parameters are within bounds, whatever their raw values (70_reset R292). -/
theorem factoryBank_inv (c : Config) : ParamsInv c c.factoryBank := by
  have hcut : c.num.le c.minCutoff c.factoryBank.cutoffHz = true ∧ c.num.le c.factoryBank.cutoffHz c.maxCutoff = true := by
    unfold Config.factoryBank
    dsimp only
    split
    · rename_i h
      exact (within_iff _ _ _ _).mp h
    · exact ⟨minCutoff_le_maxCutoff c, maxCutoff_le_self c⟩
  refine ⟨hcut.1, hcut.2, ?_⟩
  unfold Config.factoryBank
  dsimp only
  split
  · assumption
  · unfold Config.octFits
    rw [show fitsSigned 0 0 = true from rfl, Bool.true_or]

/-- The factory parameters of the block are the reference ones (70_reset R292, log 6). -/
theorem chip_factoryBank : Config.chip.factoryBank = factoryReference NumType.binary64 Config.chip.maxCutoff := by
  have h : Config.chip.num.within Config.chip.minCutoff Config.chip.maxCutoff Config.chip.factoryBankRaw.cutoffHz = true :=
    (within_iff _ _ _ _).mpr ⟨minCutoff_le_maxCutoff Config.chip, maxCutoff_le_self Config.chip⟩
  unfold Config.factoryBank
  rw [if_pos h]
  rfl

/-- A Bank without voices. -/
theorem bankInv_empty (c : Config) (P : Params) (hP : ParamsInv c P) :
    BankInv c { params := P, slots := Vector.replicate 25 none, noteMap := [] } where
  mapForm := rfl
  keyNamesLive := by simp
  liveNamed := by simp
  doneReleasing := by simp
  cutoffLow := hP.cutoffLow
  cutoffHigh := hP.cutoffHigh
  octave := hP.octave

/-- `bank_add` keeps the invariant. -/
theorem bankAdd_inv (c : Config) (off : Int) (vel : Num64) (B : Bank) (h : BankInv c B) :
    BankInv c (bankAdd c off vel B) := by
  rcases bankAdd_cases c off vel B with ⟨_, he⟩ | ⟨_, _, he⟩ | ⟨s, hk, hs, _, he⟩
  · rw [he]; exact h
  · rw [he]; exact h
  · rw [he]
    refine ⟨kmap_wf_put _ _ _ h.mapForm, ?_, ?_, ?_, h.cutoffLow, h.cutoffHigh, h.octave⟩
    · intro k r hr
      by_cases hkk : k = off + c.a4
      · subst hkk
        rw [kmap_get_put] at hr
        cases hr
        exact ⟨_, slots_get_set _ _ _, rfl, rfl⟩
      · dsimp only at hr
        rw [kmap_get_put_ne _ _ _ _ hkk] at hr
        obtain ⟨v, hv, hrel, hn⟩ := h.keyNamesLive k r hr
        refine ⟨v, ?_, hrel, hn⟩
        rw [slots_get_set_ne _ _ _ _ (by rintro rfl; rw [hs] at hv; cases hv)]
        exact hv
    · intro r v hv hrel
      by_cases hrs : r = s
      · subst hrs
        rw [slots_get_set] at hv
        cases hv
        exact kmap_get_put _ _ _
      · rw [slots_get_set_ne _ _ _ _ hrs] at hv
        have hn := h.liveNamed r v hv hrel
        dsimp only
        rw [kmap_get_put_ne _ _ _ _ (by intro e; rw [e, hk] at hn; cases hn)]
        exact hn
    · intro r v hv hd
      by_cases hrs : r = s
      · subst hrs
        rw [slots_get_set] at hv
        cases hv
        cases hd
      · rw [slots_get_set_ne _ _ _ _ hrs] at hv
        exact h.doneReleasing r v hv hd

/-- `bank_remove` keeps the invariant. -/
theorem bankRemove_inv (c : Config) (k : Int) (B : Bank) (h : BankInv c B) : BankInv c (bankRemove c k B) := by
  rcases bankRemove_cases c k B with ⟨_, he⟩ | ⟨s, hk, he⟩
  · rw [he]; exact h
  · rw [he]
    obtain ⟨v, hv, hrel, hn⟩ := h.keyNamesLive k s hk
    refine ⟨kmap_wf_erase _ _ h.mapForm, ?_, ?_, ?_, h.cutoffLow, h.cutoffHigh, h.octave⟩
    · intro j r hr
      by_cases hj : j = k
      · subst hj
        simp at hr
      · dsimp only at hr
        rw [kmap_get_erase_ne _ _ _ hj] at hr
        obtain ⟨u, hu, hur, hun⟩ := h.keyNamesLive j r hr
        refine ⟨u, ?_, hur, hun⟩
        rw [slots_get_set_ne _ _ _ _ ?_]
        · exact hu
        · rintro rfl
          rw [hv] at hu
          cases hu
          exact hj (hun.symm.trans hn)
    · intro r u hu hur
      by_cases hrs : r = s
      · subst hrs
        rw [slots_get_set, hv] at hu
        cases hu
        cases hur
      · rw [slots_get_set_ne _ _ _ _ hrs] at hu
        have hm := h.liveNamed r u hu hur
        dsimp only
        rw [kmap_get_erase_ne _ _ _ ?_]
        · exact hm
        · intro e
          rw [e, hk] at hm
          cases hm
          exact hrs rfl
    · intro r u hu hd
      by_cases hrs : r = s
      · subst hrs
        rw [slots_get_set, hv] at hu
        cases hu
        rfl
      · rw [slots_get_set_ne _ _ _ _ hrs] at hu
        exact h.doneReleasing r u hu hd

/-- The prune keeps the invariant: a done voice has no key (43_mixer R231). -/
theorem bankPrune_inv (c : Config) (B : Bank) (h : BankInv c B) : BankInv c (bankPrune B) := by
  have hslot : ∀ r u, (bankPrune B).slots.get r = some u → B.slots.get r = some u ∧ u.done = false := by
    intro r u hu
    rw [bankPrune_slot] at hu
    cases hv : B.slots.get r with
    | none => rw [hv] at hu; cases hu
    | some v =>
      rw [hv] at hu
      dsimp only at hu
      split at hu
      · cases hu
      · rename_i hd
        cases hu
        exact ⟨rfl, Bool.eq_false_iff.mpr hd⟩
  refine ⟨h.mapForm, ?_, ?_, ?_, h.cutoffLow, h.cutoffHigh, h.octave⟩
  · intro k s hk
    obtain ⟨v, hv, hrel, hn⟩ := h.keyNamesLive k s hk
    refine ⟨v, ?_, hrel, hn⟩
    have hd : v.done = false := by
      by_contra hd
      have := h.doneReleasing s v hv (Bool.not_eq_false _ ▸ hd)
      rw [hrel] at this
      cases this
    rw [bankPrune_slot, hv]
    simp [hd]
  · intro s v hv hrel
    exact h.liveNamed s v (hslot s v hv).1 hrel
  · intro s v hv hd
    exact h.doneReleasing s v (hslot s v hv).1 hd

/-- The advance of the voices keeps the invariant: it moves phases, and makes done only what is releasing (R233). -/
theorem bankMix_inv (c : Config) (B : Bank) (h : BankInv c B) : BankInv c (bankMix c B).1 := by
  unfold bankMix
  split
  · exact h
  · refine ⟨h.mapForm, ?_, ?_, ?_, h.cutoffLow, h.cutoffHigh, h.octave⟩
    · intro k s hk
      obtain ⟨v, hv, hrel, hn⟩ := h.keyNamesLive k s hk
      exact ⟨advanceVoice c B.params v, by simp [hv], hrel, hn⟩
    · intro s u hu hrel
      simp only [slotsMap_get, Option.map_eq_some_iff] at hu
      obtain ⟨v, hv, rfl⟩ := hu
      exact h.liveNamed s v hv hrel
    · intro s u hu hd
      simp only [slotsMap_get, Option.map_eq_some_iff] at hu
      obtain ⟨v, hv, rfl⟩ := hu
      simp only [advanceVoice, Bool.or_eq_true, Bool.and_eq_true] at hd
      rcases hd with hd | hd
      · exact h.doneReleasing s v hv hd
      · exact hd.1

/-- A Bank's buffer step keeps the invariant. -/
theorem bankNextBuffer_inv (c : Config) (B : Bank) (h : BankInv c B) : BankInv c (bankNextBuffer c B).1 :=
  bankMix_inv c _ (bankPrune_inv c B h)

/-! ## Recorder -/

/-- The counter 1 fits, whatever TS_BITS. -/
theorem tsFits_one (c : Config) : c.tsFits 1 = true := tsFits_small c 1 (by norm_num)

theorem tsFits_zero (c : Config) : c.tsFits 0 = true := tsFits_small c 0 (by norm_num)

/-- The edges keep the invariant, but for the flag that they copy. -/
theorem tickEdges_inv (c : Config) (arm : Bool) (R : Recorder) (h : RecorderInv c R) :
    RecorderInv c (tickEdges arm R) := by
  cases arm with
  | true =>
    cases ha : R.armed with
    | true => rw [tickEdges_armed_armed R ha]; exact h
    | false =>
      rw [tickEdges_arm R ha]
      exact ⟨rfl, Nat.zero_le _, by simp, fun _ => rfl, tsFits_zero c, h.loopFits⟩
  | false =>
    cases ha : R.armed with
    | true =>
      rw [tickEdges_disarm R ha]
      exact ⟨h.eventsForm, h.capacity, h.notes, by simp, tsFits_zero c, h.timestampFits⟩
    | false => rw [tickEdges_idle R ha]; exact h

/-- A tick keeps the invariant (42_recorder R213). -/
theorem tick_inv (c : Config) (arm : Bool) (R Q : Recorder) (r : Option Action) (h : RecorderInv c R)
    (ht : tick c arm R = .ok (Q, r)) : RecorderInv c Q := by
  have hE := tickEdges_inv c arm R h
  rcases tick_cases c arm R Q r ht with ⟨_, _, rfl, _⟩ | ⟨_, hf, rfl, _⟩ | ⟨_, _, hf, hq⟩
  · exact hE
  · exact ⟨hE.eventsForm, hE.capacity, hE.notes, hE.armedNotPaused, hf, hE.loopFits⟩
  · rcases playAt_cases { tickEdges arm R with timestamp := (tickEdges arm R).timestamp + 1 } with
      ⟨a, _, _, hp⟩ | ⟨_, _, _, hp⟩ | ⟨_, _, _, hp⟩ | ⟨_, hp⟩
    · rw [hp] at hq; cases hq
      exact ⟨hE.eventsForm, hE.capacity, hE.notes, hE.armedNotPaused, hf, hE.loopFits⟩
    · rw [hp] at hq; cases hq
      exact ⟨hE.eventsForm, hE.capacity, hE.notes, hE.armedNotPaused, tsFits_zero c, hE.loopFits⟩
    · rw [hp] at hq; cases hq
      exact ⟨hE.eventsForm, hE.capacity, hE.notes, hE.armedNotPaused, hf, hE.loopFits⟩
    · rw [hp] at hq; cases hq
      exact ⟨hE.eventsForm, hE.capacity, hE.notes, hE.armedNotPaused, hf, hE.loopFits⟩

/-- An action that a tick replays is a note action (41_actions R157, 43_mixer R236). -/
theorem tick_returns_note (c : Config) (arm : Bool) (R Q : Recorder) (a : Action) (h : RecorderInv c R)
    (ht : tick c arm R = .ok (Q, some a)) : isNoteAction a = true := by
  have hk := (tick_returns c arm R Q a ht).2
  exact (tick_inv c arm R Q _ h ht).notes _ _ hk

/-- `record` of a note action keeps the invariant. -/
theorem record_inv (c : Config) (a : Action) (R : Recorder) (ha : isNoteAction a = true) (h : RecorderInv c R) :
    RecorderInv c (record c a R) := by
  obtain ⟨n, hn, hr⟩ := record_cases c a R
  have hfit : c.tsFits n = true := by
    rw [hn]
    split
    · exact tsFits_one c
    · exact h.timestampFits
  rcases hr with ⟨hc, he⟩ | ⟨hc, he⟩
  · rw [he]
    refine ⟨kmap_wf_put _ _ _ h.eventsForm, le_trans (kmap_length_put _ _ _) hc, ?_, h.armedNotPaused, hfit, h.loopFits⟩
    intro m b hb
    by_cases hm : m = n
    · subst hm
      rw [kmap_get_put] at hb
      cases hb
      exact ha
    · dsimp only at hb
      rw [kmap_get_put_ne _ _ _ _ hm] at hb
      exact h.notes m b hb
  · rw [he]
    exact ⟨h.eventsForm, h.capacity, h.notes, h.armedNotPaused, hfit, h.loopFits⟩

/-- `pause_toggle` keeps the invariant. -/
theorem pauseToggle_inv (c : Config) (R : Recorder) (h : RecorderInv c R) : RecorderInv c (pauseToggle R) := by
  rw [pauseToggle_eq]
  refine ⟨h.eventsForm, h.capacity, h.notes, ?_, h.timestampFits, h.loopFits⟩
  intro ha
  dsimp only at ha ⊢
  rw [if_pos ha]
  exact h.armedNotPaused ha

/-- `stop` keeps the invariant. -/
theorem stopRecorder_inv (c : Config) (R : Recorder) (h : RecorderInv c R) : RecorderInv c (stopRecorder R) :=
  ⟨rfl, Nat.zero_le _, by simp [stopRecorder], fun _ => rfl, tsFits_zero c, h.loopFits⟩

/-! ## Layer -/

/-- The invariant of a Layer speaks of its Recorder and its Banks only. -/
theorem layerInv_of (c : Config) (L M : Layer) (h : LayerInv c L) (hr : M.recorder = L.recorder) (hb : M.bank = L.bank) :
    LayerInv c M := ⟨hr ▸ h.recorder, fun b => hb ▸ h.bank b⟩

/-- A parameter setter that keeps the bounds keeps the invariant. -/
theorem onParams_inv (c : Config) (L : Layer) (b : Fin 4) (f : Params → Params) (h : LayerInv c L)
    (hf : ParamsInv c (f (L.bank.get b).params)) : LayerInv c (L.onParams b f) := by
  refine ⟨h.recorder, fun k => ?_⟩
  by_cases hk : k = b
  · subst hk
    rw [onParams_get]
    exact bankInv_withParams c _ _ (h.bank k) hf
  · rw [onParams_get_ne _ _ _ _ hk]
    exact h.bank k

/-- The capture of a note action keeps the invariant. -/
theorem capture_inv (c : Config) (a : Action) (live : Bool) (L : Layer) (ha : isNoteAction a = true)
    (h : LayerInv c L) : LayerInv c (capture c a live L) := by
  rw [capture_eq]
  refine ⟨?_, h.bank⟩
  dsimp only
  split
  · exact record_inv c a _ ha h.recorder
  · exact h.recorder

/-- A parameter setter of one of the targets keeps the invariant where it keeps the bounds. -/
theorem onTarget_inv (c : Config) (L : Layer) (p : Int) (f : Params → Params) (h : LayerInv c L)
    (hf : ∀ P, ParamsInv c P → ParamsInv c (f P)) : LayerInv c (onTarget p f L) := by
  unfold onTarget
  split
  · exact onParams_inv c L _ f h (hf _ (bankInv_params c _ (h.bank _)))
  · exact h

/-- A setter that leaves the octave and the cutoff keeps the bounds. -/
theorem paramsInv_of (c : Config) (P Q : Params) (h : ParamsInv c P) (ho : Q.octave = P.octave)
    (hc : Q.cutoffHz = P.cutoffHz) : ParamsInv c Q :=
  ⟨hc ▸ h.cutoffLow, hc ▸ h.cutoffHigh, ho ▸ h.octave⟩

theorem setEnvelope_keeps (c : Config) (i : Fin 4) (x : Num64) (P : Params) :
    (setEnvelope c i x P).octave = P.octave ∧ (setEnvelope c i x P).cutoffHz = P.cutoffHz := by
  unfold setEnvelope
  split <;> exact ⟨rfl, rfl⟩

theorem setLfo_keeps (b : Bool) (x : Num64) (P : Params) :
    (setLfo b x P).octave = P.octave ∧ (setLfo b x P).cutoffHz = P.cutoffHz := by
  unfold setLfo
  split <;> exact ⟨rfl, rfl⟩

/-- A Layer's dispatch keeps the invariant, whatever the action (41_actions R151 to R180). -/
theorem layerApply_inv (c : Config) (d : Nat) (a : Action) (live : Bool) (L M : Layer) (h : LayerInv c L)
    (ha : layerApply c d a live L = .ok M) : LayerInv c M := by
  have hL : LayerInv c (clearPresses a L) := layerInv_of c L _ h (by simp) (by simp)
  have hset : ∀ {f : Params → Params}, (∀ P, (f P).octave = P.octave ∧ (f P).cutoffHz = P.cutoffHz) →
      ∀ P, ParamsInv c P → ParamsInv c (f P) := fun hf P hP => paramsInv_of c P _ hP (hf P).1 (hf P).2
  unfold layerApply at ha
  cases hc : a.code <;> simp only [hc] at ha
  case addNote =>
    cases ha
    refine capture_inv c a live _ (by simp [isNoteAction, hc]) ⟨hL.recorder, fun b => ?_⟩
    have hadd : ∀ m B, BankInv c B → BankInv c (addUnlessMuted c a m B) := by
      intro m B hB
      unfold addUnlessMuted
      split
      · exact hB
      · exact bankAdd_inv c _ _ B hB
    match b with
    | 0 => exact hadd _ _ (hL.bank 0)
    | 1 => exact hadd _ _ (hL.bank 1)
    | 2 => exact hadd _ _ (hL.bank 2)
    | 3 => exact hadd _ _ (hL.bank 3)
  case removeNote =>
    cases ha
    refine capture_inv c a live _ (by simp [isNoteAction, hc]) ⟨hL.recorder, fun b => ?_⟩
    rw [quad_get_map]
    exact bankRemove_inv c _ _ (hL.bank b)
  case layerRec =>
    cases ha
    unfold layerRec
    split
    · refine ⟨stopRecorder_inv c _ hL.recorder, fun b => ?_⟩
      rw [layerRecStop_get]
      refine bankInv_empty c _ ?_
      split
      · exact factoryBank_inv c
      · exact bankInv_params c _ (hL.bank b)
    · split
      · exact ⟨pauseToggle_inv c _ hL.recorder, hL.bank⟩
      · split
        · exact layerInv_of c _ _ hL rfl rfl
        · exact hL
  case oscOctave =>
    unfold layerOctave at ha
    dsimp only at ha
    split at ha
    · rename_i ho
      cases ha
      have hP := bankInv_params c _ (hL.bank (clearPresses a L).selBank)
      exact onParams_inv c _ _ _ hL ⟨hP.cutoffLow, hP.cutoffHigh, ho⟩
    · cases ha
  case oscSelect =>
    cases ha
    unfold layerOscSelect
    split
    · exact layerInv_of c _ _ hL rfl rfl
    · exact hL
  case oscMute =>
    cases ha
    unfold layerMute
    split
    · exact layerInv_of c _ _ hL rfl rfl
    · exact hL
  case oscAmp => cases ha; exact onTarget_inv c _ _ _ hL (hset (fun P => ⟨rfl, rfl⟩))
  case oscPitch => cases ha; exact onTarget_inv c _ _ _ hL (hset (fun P => ⟨rfl, rfl⟩))
  case filterCutoff =>
    cases ha
    refine onTarget_inv c _ _ _ hL (fun P hP => ?_)
    obtain ⟨h1, h2⟩ := clampCutoff_bounds c d (c.num.mul a.value c.maxCutoff)
    exact ⟨h1, h2, hP.octave⟩
  case oscType =>
    cases ha
    exact onParams_inv c _ _ _ hL (hset (f := nextWaveform) (fun P => ⟨rfl, rfl⟩) _ (bankInv_params c _ (hL.bank _)))
  case modSelect =>
    cases ha
    unfold layerModSelect
    split
    · exact onParams_inv c _ _ _ hL
        (hset (f := setModTarget _) (fun P => ⟨rfl, rfl⟩) _ (bankInv_params c _ (hL.bank _)))
    · exact hL
  case envelope =>
    cases ha
    unfold layerEnvelope
    split
    · exact onParams_inv c _ _ _ hL (hset (setEnvelope_keeps c _ _) _ (bankInv_params c _ (hL.bank _)))
    · exact hL
  case lfo =>
    cases ha
    exact onParams_inv c _ _ _ hL (hset (setLfo_keeps _ _) _ (bankInv_params c _ (hL.bank _)))
  all_goals
    cases ha
    exact layerInv_of c _ _ hL rfl rfl

/-- A fresh Layer meets the invariant, under any parameters. -/
theorem layerInv_initial (c : Config) : LayerInv c (Layer.initial c) := by
  refine ⟨⟨rfl, Nat.zero_le _, by simp [Layer.initial, Recorder.initial], by simp [Layer.initial, Recorder.initial],
    tsFits_zero c, tsFits_zero c⟩, fun b => ?_⟩
  simp only [Layer.initial, quad_get_all]
  exact bankInv_empty c _ (factoryBank_inv c)

/-- Writing a Layer that meets the invariant keeps it. -/
theorem stateInv_setLayer (c : Config) (s : State) (l : Fin 4) (L : Layer) (h : StateInv c s) (hL : LayerInv c L) :
    StateInv c (s.setLayer l L) := by
  intro k
  by_cases hk : k = l
  · subst hk
    simpa using hL
  · rw [setLayer_get_ne _ _ _ _ hk]
    exact h k

end Sys2Proof.Laws
end

