-- ==== Sys2Proof/Laws/Chip.lean ====
section
/-! SUPPORT. The block's own parameters read out: Config.chip at the references of the spec, and the reference numeric type at
the binary64 operations. -/

namespace Sys2Proof.Laws

open Sys2Proof Sys2Proof.Machine

/-! ## The reference numeric type -/

@[simp] theorem binary64_ofInt : NumType.binary64.ofInt = Num64.ofInt := rfl
@[simp] theorem binary64_add : NumType.binary64.add = Num64.add := rfl
@[simp] theorem binary64_sub : NumType.binary64.sub = Num64.sub := rfl
@[simp] theorem binary64_mul : NumType.binary64.mul = Num64.mul := rfl
@[simp] theorem binary64_div : NumType.binary64.div = Num64.div := rfl
@[simp] theorem binary64_lt : NumType.binary64.lt = Num64.lt := rfl
@[simp] theorem binary64_le : NumType.binary64.le = Num64.le := rfl
@[simp] theorem binary64_isNaN : NumType.binary64.isNaN = Num64.isNaN := rfl
@[simp] theorem binary64_isFinite : NumType.binary64.isFinite = Num64.isFinite := rfl
@[simp] theorem binary64_isZero : NumType.binary64.isZero = Num64.isZero := rfl
@[simp] theorem binary64_isInteger : NumType.binary64.isInteger = Num64.isInteger := rfl
@[simp] theorem binary64_trunc : NumType.binary64.trunc = Num64.trunc := rfl
@[simp] theorem binary64_exp : NumType.binary64.exp = Num64.exp := rfl
@[simp] theorem binary64_powE : NumType.binary64.powE = Num64.powE := rfl
@[simp] theorem binary64_ofRatio (p : Int) (q : Nat) :
    NumType.binary64.ofRatio p q = Num64.div (Num64.ofInt p) (Num64.ofInt q) := rfl
@[simp] theorem binary64_zero : NumType.binary64.zero = Num64.zero := by decide
@[simp] theorem binary64_one : NumType.binary64.one = Num64.one := by decide
@[simp] theorem binary64_negOne : NumType.binary64.negOne = Num64.negOne := by decide

/-! ## The block's parameters -/

@[simp] theorem chip_num : Config.chip.num = NumType.binary64 := rfl
@[simp] theorem chip_decodeTable : Config.chip.decodeTable = referenceTable := rfl
@[simp] theorem chip_pcmQuant : Config.chip.pcmQuant = pcmReference NumType.binary64 := rfl
@[simp] theorem chip_factorySelLayer : Config.chip.factorySelLayer = 0 := rfl
@[simp] theorem chip_factorySelBank : Config.chip.factorySelBank = 0 := rfl
@[simp] theorem chip_factoryMasterAmp : Config.chip.factoryMasterAmp = Num64.one := by decide
@[simp] theorem chip_factoryLayerAmp : Config.chip.factoryLayerAmp = Num64.one := by decide
@[simp] theorem chip_minCutoff : Config.chip.minCutoff = 0x4059000000000000#64 := by decide

/-- `MIDI_TO_A4` of the block is a 7-bit key (60_exceptions R261, log 7). -/
theorem chip_a4 : 0 ≤ Config.chip.a4 ∧ Config.chip.a4 ≤ 127 := by
  constructor
  · exact Int.natCast_nonneg _
  · show (Config.openA4.val : Int) ≤ 127
    have := Config.openA4.isLt
    omega

/-! ## The LFO speed -/

/-- A finite value above 0 is a positive dyadic. -/
theorem num64_val_of_pos (x : Num64) (h : Num64.lt Num64.zero x = true) (hf : Num64.isFinite x = true) :
    ∃ m e, Num64.val x = .fin false m e := by
  have hn : Num64.neg x = false := by
    by_contra hn
    have hn : Num64.neg x = true := by simpa using hn
    simp only [Num64.lt, Bool.and_eq_true, decide_eq_true_eq] at h
    have h2 := h.2
    rw [show Num64.key Num64.zero = 0 by decide] at h2
    simp only [Num64.key, hn, if_true] at h2
    omega
  have hm : Num64.mag x / 2 ^ 52 ≠ 2047 := by
    simp only [Num64.isFinite, decide_eq_true_eq] at hf
    omega
  unfold Num64.val
  simp only [hm, if_false, hn]
  split <;> exact ⟨_, _, rfl⟩

/-- A controller value of 0 gives an LFO speed of 0 Hz, whatever `LFO_SPEED_MAX_HZ` (40_decoder R133). -/
theorem lfoSpeedValue_zero : lfoSpeedValue Config.chip 0#7 = Num64.zero := by
  obtain ⟨hlt, hfin⟩ := lfoSpeedMax_bounds Config.chip
  rw [chip_num, binary64_zero, binary64_lt] at hlt
  rw [chip_num, binary64_isFinite] at hfin
  obtain ⟨m, e, hv⟩ := num64_val_of_pos _ hlt hfin
  have hn : normalized Config.chip 0#7 = Num64.zero := by decide
  have hz : Num64.val Num64.zero = .fin false 0 (-1074) := by decide
  unfold lfoSpeedValue
  rw [hn, chip_num, binary64_mul, Num64.mul, hz, hv]
  simp [Num64.round, Num64.zeroOf, Num64.zero]

end Sys2Proof.Laws
end

