-- ==== Sys2Proof/Laws/Decode.lean ====
section
/-! SUPPORT. The laws of the message word: its bytes and its fields read back, and when a row of the table matches it. -/

namespace Sys2Proof.Laws

open Sys2Proof

/-- The bits of a word are those of its bytes (10_state R60). -/
theorem wordOf_getLsbD (a b c : Byte) (i : Nat) :
    (wordOf a b c).getLsbD i =
      if i < 8 then c.getLsbD i else if i - 8 < 8 then b.getLsbD (i - 8) else a.getLsbD (i - 8 - 8) := by
  change BitVec.getLsbD (w := 8 + 8 + 8) (a ++ b ++ c) i = _
  rw [BitVec.getLsbD_append, BitVec.getLsbD_append]

@[simp] theorem wordB0_wordOf (a b c : Byte) : wordB0 (wordOf a b c) = a := by
  apply BitVec.eq_of_getLsbD_eq
  intro i hi
  simp only [wordB0, BitVec.getLsbD_extractLsb', wordOf_getLsbD]
  interval_cases i <;> rfl

@[simp] theorem wordB1_wordOf (a b c : Byte) : wordB1 (wordOf a b c) = b := by
  apply BitVec.eq_of_getLsbD_eq
  intro i hi
  simp only [wordB1, BitVec.getLsbD_extractLsb', wordOf_getLsbD]
  interval_cases i <;> rfl

@[simp] theorem wordB2_wordOf (a b c : Byte) : wordB2 (wordOf a b c) = c := by
  apply BitVec.eq_of_getLsbD_eq
  intro i hi
  simp only [wordB2, BitVec.getLsbD_extractLsb', wordOf_getLsbD]
  interval_cases i <;> rfl

/-- A word is the word of its bytes (10_state R60). -/
@[simp] theorem wordOf_bytes (w : MsgWord) : wordOf (wordB0 w) (wordB1 w) (wordB2 w) = w := by
  apply BitVec.eq_of_getLsbD_eq
  intro i hi
  simp only [wordB0, wordB1, wordB2, BitVec.getLsbD_extractLsb', wordOf_getLsbD]
  interval_cases i <;> rfl

/-- The word of a message's fields (30_encoding R91). -/
def messageWord (st ch : BitVec 4) (k v : BitVec 7) : MsgWord := wordOf (st ++ ch) (0#1 ++ k) (0#1 ++ v)

/-- The bits of a byte of two nibbles. -/
theorem nibbles_getLsbD (st ch : BitVec 4) (i : Nat) :
    BitVec.getLsbD (w := 8) (st ++ ch) i = if i < 4 then ch.getLsbD i else st.getLsbD (i - 4) := by
  change BitVec.getLsbD (w := 4 + 4) (st ++ ch) i = _
  rw [BitVec.getLsbD_append]

/-- The bits of a data byte. -/
theorem data_getLsbD (d : BitVec 1) (k : BitVec 7) (i : Nat) :
    BitVec.getLsbD (w := 8) (d ++ k) i = if i < 7 then k.getLsbD i else d.getLsbD (i - 7) := by
  change BitVec.getLsbD (w := 1 + 7) (d ++ k) i = _
  rw [BitVec.getLsbD_append]

/-- The bits of a controller number of a group of four. -/
theorem group_getLsbD (g : BitVec 5) (idx : BitVec 2) (i : Nat) :
    BitVec.getLsbD (w := 7) (g ++ idx) i = if i < 2 then idx.getLsbD i else g.getLsbD (i - 2) := by
  change BitVec.getLsbD (w := 5 + 2) (g ++ idx) i = _
  rw [BitVec.getLsbD_append]

@[simp] theorem fieldCh_messageWord (st ch : BitVec 4) (k v : BitVec 7) : fieldCh (messageWord st ch k v) = ch := by
  apply BitVec.eq_of_getLsbD_eq
  intro i hi
  simp only [fieldCh, messageWord, BitVec.getLsbD_extractLsb', wordOf_getLsbD, nibbles_getLsbD]
  interval_cases i <;> rfl

@[simp] theorem fieldK_messageWord (st ch : BitVec 4) (k v : BitVec 7) : fieldK (messageWord st ch k v) = k := by
  apply BitVec.eq_of_getLsbD_eq
  intro i hi
  simp only [fieldK, messageWord, BitVec.getLsbD_extractLsb', wordOf_getLsbD, data_getLsbD]
  interval_cases i <;> rfl

@[simp] theorem fieldV_messageWord (st ch : BitVec 4) (k v : BitVec 7) : fieldV (messageWord st ch k v) = v := by
  apply BitVec.eq_of_getLsbD_eq
  intro i hi
  simp only [fieldV, messageWord, BitVec.getLsbD_extractLsb', wordOf_getLsbD, data_getLsbD]
  interval_cases i <;> rfl

@[simp] theorem fieldIdx_messageWord (st ch : BitVec 4) (g : BitVec 5) (idx : BitVec 2) (v : BitVec 7) :
    fieldIdx (messageWord st ch (g ++ idx) v) = idx := by
  apply BitVec.eq_of_getLsbD_eq
  intro i hi
  simp only [fieldIdx, messageWord, BitVec.getLsbD_extractLsb', wordOf_getLsbD, data_getLsbD, group_getLsbD]
  interval_cases i <;> rfl

/-- Masking a message's word masks its fields. -/
theorem messageWord_and (st ch ms mc : BitVec 4) (k v mk mv : BitVec 7) (d1 d2 : BitVec 1) :
    messageWord st ch k v &&& wordOf (ms ++ mc) (d1 ++ mk) (d2 ++ mv) =
      messageWord (st &&& ms) (ch &&& mc) (k &&& mk) (v &&& mv) := by
  apply BitVec.eq_of_getLsbD_eq
  intro i hi
  simp only [messageWord, BitVec.getLsbD_and, wordOf_getLsbD, nibbles_getLsbD, data_getLsbD]
  repeat' split
  all_goals simp

/-- A row matches a message's word where its mask and its pattern are those of the fields, and its condition holds of the
last byte (30_encoding R94). -/
theorem matches_messageWord (r : DecodeRow) (st ch : BitVec 4) (k v mk mv : BitVec 7)
    (hm : r.mask = wordOf (0xF#4 ++ 0#4) (1#1 ++ mk) (1#1 ++ mv))
    (hp : r.pattern = messageWord st 0#4 (k &&& mk) (v &&& mv)) (hc : r.cond.holds (0#1 ++ v) = true) :
    r.matches (messageWord st ch k v) = true := by
  have h2 : wordB2 (messageWord st ch k v) = 0#1 ++ v := by simp [messageWord]
  have hs : st &&& 0xF#4 = st := BitVec.and_allOnes
  unfold DecodeRow.matches
  rw [hm, hp, messageWord_and, h2, hc, hs]
  simp

end Sys2Proof.Laws
end

