-- ==== Sys2Proof/Laws/Mixer.lean ====
section
/-! SUPPORT. The laws of the Mixer: what a Layer's tick and a buffer transaction can do. -/

namespace Sys2Proof.Laws

open Sys2Proof Sys2Proof.Machine Sys2Proof.Safety

/-- A Bank's buffer step leaves the parameters and the note map (43_mixer R231, R235). -/
theorem bankNextBuffer_keeps (c : Config) (B : Bank) :
    (bankNextBuffer c B).1.params = B.params ∧ (bankNextBuffer c B).1.noteMap = B.noteMap := by
  unfold bankNextBuffer bankMix
  split <;> exact ⟨rfl, rfl⟩

/-- The mix of a Layer touches its Banks only (R237). -/
theorem layerMix_keeps (c : Config) (L : Layer) :
    (layerMix c L).1 = { L with bank := (L.bank.map (bankNextBuffer c)).map Prod.fst } := rfl

/-- A Bank after the mix of its Layer. -/
theorem layerMix_get (c : Config) (L : Layer) (b : Fin 4) :
    (layerMix c L).1.bank.get b = (bankNextBuffer c (L.bank.get b)).1 := by
  rw [layerMix_keeps]
  simp

/-- The mix keeps the invariant. -/
theorem layerMix_inv (c : Config) (L : Layer) (h : LayerInv c L) : LayerInv c (layerMix c L).1 :=
  ⟨h.recorder, fun b => layerMix_get c L b ▸ bankNextBuffer_inv c _ (h.bank b)⟩

/-- Everything a Layer's tick that is answered can have done (R236): the tick, and the replay of a note action. -/
theorem layerTick_cases (c : Config) (d : Nat) (L M : Layer) (h : LayerInv c L) (ht : layerTick c d L = .ok M) :
    ∃ R r, tick c L.recording L.recorder = .ok (R, r) ∧
      ((r = none ∧ M = { L with recorder := R }) ∨
       (∃ a, r = some a ∧ isNoteAction a = true ∧ L.recording = false ∧
          layerApply c d a false { L with recorder := R } = .ok M)) := by
  unfold layerTick at ht
  cases hk : tick c L.recording L.recorder with
  | error f => rw [hk] at ht; cases ht
  | ok p =>
    obtain ⟨R, r⟩ := p
    refine ⟨R, r, rfl, ?_⟩
    rw [hk] at ht
    cases r with
    | none => cases ht; exact Or.inl ⟨rfl, rfl⟩
    | some a =>
      have hrec := (tick_returns c _ _ _ _ hk).1
      refine Or.inr ⟨a, rfl, tick_returns_note c _ _ _ _ h.recorder hk, hrec, ?_⟩
      simpa [hrec] using ht

/-- A Layer's tick faults exactly where its Recorder's does (42_recorder R212): the replay of a note action does not. -/
theorem layerTick_error (c : Config) (d : Nat) (L : Layer) (f : Fault) (h : LayerInv c L) :
    layerTick c d L = .error f ↔ tick c L.recording L.recorder = .error f := by
  unfold layerTick
  cases hk : tick c L.recording L.recorder with
  | error g => simp
  | ok p =>
    obtain ⟨R, r⟩ := p
    cases r with
    | none => simp
    | some a =>
      have hn := tick_returns_note c _ _ _ _ h.recorder hk
      have hrec := (tick_returns c _ _ _ _ hk).1
      simp [hrec, layerApply_note c d a false _ hn]

/-- A Layer's tick keeps the invariant. -/
theorem layerTick_inv (c : Config) (d : Nat) (L M : Layer) (h : LayerInv c L) (ht : layerTick c d L = .ok M) :
    LayerInv c M := by
  obtain ⟨R, r, hk, ⟨_, rfl⟩ | ⟨a, _, _, _, ha⟩⟩ := layerTick_cases c d L M h ht
  · exact ⟨tick_inv c _ _ _ _ h.recorder hk, h.bank⟩
  · exact layerApply_inv c d a false { L with recorder := R } M ⟨tick_inv c _ _ _ _ h.recorder hk, h.bank⟩ ha

/-- A Layer's buffer step is its tick, then its mix (43_mixer R239). -/
theorem layerNextBuffer_ok (c : Config) (d : Nat) (L : Layer) (p : Layer × Buffer) :
    layerNextBuffer c d L = .ok p ↔ ∃ M, layerTick c d L = .ok M ∧ layerMix c M = p := by
  unfold layerNextBuffer
  cases layerTick c d L <;> simp

theorem layerNextBuffer_error (c : Config) (d : Nat) (L : Layer) (f : Fault) :
    layerNextBuffer c d L = .error f ↔ layerTick c d L = .error f := by
  unfold layerNextBuffer
  cases layerTick c d L <;> simp

/-- The four Layers' steps are answered exactly where each is, and leave what each leaves (R240). -/
theorem layersNextBuffer_ok (c : Config) (d : Nat) (q r : Quad Layer) (x : Buffer)
    (h : layersNextBuffer c d q = .ok (r, x)) :
    ∃ y : Fin 4 → Buffer, (∀ l, layerNextBuffer c d (q.get l) = .ok (r.get l, y l)) ∧
      x = sumBufs c [y 0, y 1, y 2, y 3] := by
  unfold layersNextBuffer at h
  cases h0 : layerNextBuffer c d q.e0 with
  | error f => simp [h0] at h
  | ok p0 =>
    cases h1 : layerNextBuffer c d q.e1 with
    | error f => simp [h0, h1] at h
    | ok p1 =>
      cases h2 : layerNextBuffer c d q.e2 with
      | error f => simp [h0, h1, h2] at h
      | ok p2 =>
        cases h3 : layerNextBuffer c d q.e3 with
        | error f => simp [h0, h1, h2, h3] at h
        | ok p3 =>
          simp only [h0, h1, h2, h3, Except.ok.injEq, Prod.mk.injEq] at h
          obtain ⟨rfl, rfl⟩ := h
          refine ⟨fun l => match l with | 0 => p0.2 | 1 => p1.2 | 2 => p2.2 | 3 => p3.2, fun l => ?_, rfl⟩
          match l with
          | 0 => exact h0
          | 1 => exact h1
          | 2 => exact h2
          | 3 => exact h3

/-- Where each Layer's step is answered, so are the four. -/
theorem layersNextBuffer_of_ok (c : Config) (d : Nat) (q : Quad Layer) (p : Fin 4 → Layer × Buffer)
    (h : ∀ l, layerNextBuffer c d (q.get l) = .ok (p l)) :
    layersNextBuffer c d q =
      .ok ({ e0 := (p 0).1, e1 := (p 1).1, e2 := (p 2).1, e3 := (p 3).1 },
        sumBufs c [(p 0).2, (p 1).2, (p 2).2, (p 3).2]) := by
  have h0 := h 0
  have h1 := h 1
  have h2 := h 2
  have h3 := h 3
  simp only [quad_get_zero, quad_get_one, quad_get_two, quad_get_three] at h0 h1 h2 h3
  simp [layersNextBuffer, h0, h1, h2, h3]

/-- A fault of the four Layers' steps is a fault of one of them. -/
theorem layersNextBuffer_error (c : Config) (d : Nat) (q : Quad Layer) (f : Fault)
    (h : layersNextBuffer c d q = .error f) : ∃ l, layerNextBuffer c d (q.get l) = .error f := by
  unfold layersNextBuffer at h
  cases h0 : layerNextBuffer c d q.e0 with
  | error g => exact ⟨0, by simpa [h0] using h⟩
  | ok p0 =>
    cases h1 : layerNextBuffer c d q.e1 with
    | error g => exact ⟨1, by simpa [h0, h1] using h⟩
    | ok p1 =>
      cases h2 : layerNextBuffer c d q.e2 with
      | error g => exact ⟨2, by simpa [h0, h1, h2] using h⟩
      | ok p2 =>
        cases h3 : layerNextBuffer c d q.e3 with
        | error g => exact ⟨3, by simpa [h0, h1, h2, h3] using h⟩
        | ok p3 => simp [h0, h1, h2, h3] at h

/-- Everything a buffer transaction that is answered has done (R240), under any parameters. -/
theorem synthNextBuffer_next (c : Config) (s t : State) (h : synthNextBuffer c s = .next t) :
    ∃ q x, layersNextBuffer c s.freeDraws s.layer = .ok (q, x) ∧
      t = { s with layer := q, audioOut := outputBytes c s.freeDraws (scaleBuf c x (masterWeight c s)) } := by
  unfold synthNextBuffer at h
  cases hq : layersNextBuffer c s.freeDraws s.layer with
  | error f => rw [hq] at h; cases h
  | ok p => rw [hq] at h; cases h; exact ⟨p.1, p.2, rfl, rfl⟩

/-- The block's own buffer transaction. -/
theorem execBuf_next (s t : State) (h : exec .buf s = .next t) :
    ∃ q x, layersNextBuffer Config.chip s.freeDraws s.layer = .ok (q, x) ∧
      t = { s with
        layer := q
        audioOut := outputBytes Config.chip s.freeDraws (scaleBuf Config.chip x (masterWeight Config.chip s)) } :=
  synthNextBuffer_next Config.chip s t h

/-- A buffer transaction keeps the invariant, under any parameters. -/
theorem synthNextBuffer_inv (c : Config) (s t : State) (hs : StateInv c s) (h : synthNextBuffer c s = .next t) :
    StateInv c t := by
  obtain ⟨q, x, hq, rfl⟩ := synthNextBuffer_next c s t h
  obtain ⟨y, hy, _⟩ := layersNextBuffer_ok _ _ _ _ _ hq
  intro l
  obtain ⟨M, h1, h2⟩ := (layerNextBuffer_ok _ _ _ _).mp (hy l)
  have := layerMix_inv c M (layerTick_inv c _ _ _ (hs l) h1)
  rw [h2] at this
  exact this

/-- An action that is applied keeps the invariant, under any parameters. -/
theorem applyAction_inv (c : Config) (a : Action) (s t : State) (hs : StateInv c s) (h : applyAction c a s = .next t) :
    StateInv c t := by
  unfold applyAction at h
  split at h
  · rcases dispatchAction_next c a s t h with ⟨_, rfl⟩ | ⟨_, _, _, rfl⟩ | ⟨_, rfl⟩ | ⟨l, L, _, hl, rfl⟩
    · exact hs
    · exact hs
    · exact hs
    · exact stateInv_setLayer c s l L hs (layerApply_inv c _ a true _ L (hs l) hl)
  · cases h

/-- The answer of a buffer transaction is two bytes a sample (R242, 20_memory R82). -/
theorem outputBytes_length (c : Config) (d : Nat) (y : Buffer) : (outputBytes c d y).length = 2 * c.bufferSamples := by
  unfold outputBytes
  rw [List.length_flatMap]
  simp [sampleBytes, Nat.mul_comm]

end Sys2Proof.Laws
end

