-- ==== Sys2Proof/Laws/PerInstr.lean ====
section
/-! SUPPORT. The per-instruction family EncodedRow: the transaction that carries a well-formed instruction belongs to the
instruction's own row of spec/opcode_table.json. -/

namespace Sys2Proof.Laws

open Sys2Proof Sys2Proof.Machine

/-- The transaction of a well-formed instruction is of its own row: a message's word is matched by a row of the reference
DecodeTable that reads the instruction back (30_encoding R94, R96, R97), unless it is NO_MATCH; an action's code on the bus
is the number of its ActionCode, with its own param and value (30_encoding R100, 10_state R61); a request is BUF. -/
def EncodedRow.Statement (i : Instr) : Prop :=
  i.wf = true →
    match encode i with
    | .midi b0 b1 b2 =>
      i = .noMatch (wordOf b0 b1 b2) ∨
        ∃ r ∈ referenceTable, r.matches (wordOf b0 b1 b2) = true ∧ r.build (wordOf b0 b1 b2) = i
    | .buf => i = .buf
    | .bus code param value =>
      ∃ a, busAction Config.chip i = some a ∧ a.code.number = code.toNat ∧ a.param = param ∧ a.value = value

/-- The condition of a button row, and of NOTE_ON: the value is not 0. -/
theorem cond_ne_zero (v : BitVec 7) (h : v ≠ 0) : (Cond.ne 0).holds (0#1 ++ v) = true := by
  revert h
  revert v
  decide

/-- The condition of BEND: the value is not the centre. -/
theorem cond_ne_centre (v : BitVec 7) (h : v ≠ 64) : (Cond.ne 64).holds (0#1 ++ v) = true := by
  revert h
  revert v
  decide

/-- The group bits of a controller number under a group row's mask. -/
theorem group_and (g : BitVec 5) (idx : BitVec 2) : g ++ idx &&& 0x7C#7 = g ++ 0#2 := by
  revert g idx
  decide

/-- A row that matches a message's word and reads it back, as the family states it. -/
theorem encodedRow_of (i : Instr) (n : Fin referenceTable.length) (st ch : BitVec 4) (k v : BitVec 7)
    (he : encode i = message st ch k v) (hm : referenceTable[n].matches (messageWord st ch k v) = true)
    (hb : referenceTable[n].build (messageWord st ch k v) = i) : EncodedRow.Statement i := by
  intro _
  rw [he]
  exact Or.inr ⟨referenceTable[n], List.getElem_mem n.isLt, hm, hb⟩

theorem EncodedRow.noteOn (ch : BitVec 4) (k : BitVec 7) (v : BitVec 7) : EncodedRow.Statement (.noteOn ch k v) := by
  intro h
  refine encodedRow_of _ ⟨0, by decide⟩ 9#4 ch k v
    rfl ?_ (by simp [referenceTable, noteRows, layerRows, bankRows]) h
  exact matches_messageWord _ _ _ _ _ 0x00#7 0x00#7 rfl (by simp [messageWord, wordOf]; rfl) (cond_ne_zero v (of_decide_eq_true h))

theorem EncodedRow.noteOnZero (ch : BitVec 4) (k : BitVec 7) : EncodedRow.Statement (.noteOnZero ch k) := by
  intro h
  refine encodedRow_of _ ⟨1, by decide⟩ 9#4 ch k 0#7
    rfl ?_ (by simp [referenceTable, noteRows, layerRows, bankRows]) h
  exact matches_messageWord _ _ _ _ _ 0x00#7 0x7F#7 rfl (by simp [messageWord, wordOf]; rfl) rfl

theorem EncodedRow.noteOff (ch : BitVec 4) (k : BitVec 7) (v : BitVec 7) : EncodedRow.Statement (.noteOff ch k v) := by
  intro h
  refine encodedRow_of _ ⟨2, by decide⟩ 8#4 ch k v
    rfl ?_ (by simp [referenceTable, noteRows, layerRows, bankRows]) h
  exact matches_messageWord _ _ _ _ _ 0x00#7 0x00#7 rfl (by simp [messageWord, wordOf]; rfl) rfl

theorem EncodedRow.bendCentre (ch : BitVec 4) (l : BitVec 7) : EncodedRow.Statement (.bendCentre ch l) := by
  intro h
  refine encodedRow_of _ ⟨3, by decide⟩ 14#4 ch l 64#7
    rfl ?_ (by simp [referenceTable, noteRows, layerRows, bankRows]) h
  exact matches_messageWord _ _ _ _ _ 0x00#7 0x7F#7 rfl (by simp [messageWord, wordOf]; rfl) rfl

theorem EncodedRow.bend (ch : BitVec 4) (l : BitVec 7) (v : BitVec 7) : EncodedRow.Statement (.bend ch l v) := by
  intro h
  refine encodedRow_of _ ⟨4, by decide⟩ 14#4 ch l v
    rfl ?_ (by simp [referenceTable, noteRows, layerRows, bankRows]) h
  exact matches_messageWord _ _ _ _ _ 0x00#7 0x00#7 rfl (by simp [messageWord, wordOf]; rfl) (cond_ne_centre v (of_decide_eq_true h))

theorem EncodedRow.ccMasterVol (ch : BitVec 4) (v : BitVec 7) : EncodedRow.Statement (.ccMasterVol ch v) := by
  intro h
  refine encodedRow_of _ ⟨5, by decide⟩ 11#4 ch 7#7 v
    rfl ?_ (by simp [referenceTable, noteRows, layerRows, bankRows]) h
  exact matches_messageWord _ _ _ _ _ 0x7F#7 0x00#7 rfl (by simp [messageWord, wordOf]; rfl) rfl

theorem EncodedRow.ccLayerSelect (ch : BitVec 4) (idx : BitVec 2) (v : BitVec 7) : EncodedRow.Statement (.ccLayerSelect ch idx v) := by
  intro h
  refine encodedRow_of _ ⟨6, by decide⟩ 11#4 ch (4#5 ++ idx) v
    rfl ?_ (by simp [referenceTable, noteRows, layerRows, bankRows]) h
  exact matches_messageWord _ _ _ _ _ 0x7C#7 0x00#7 rfl (by rw [group_and]; simp [messageWord, wordOf]; rfl) (cond_ne_zero v (of_decide_eq_true h))

theorem EncodedRow.ccLayerAmp (ch : BitVec 4) (idx : BitVec 2) (v : BitVec 7) : EncodedRow.Statement (.ccLayerAmp ch idx v) := by
  intro h
  refine encodedRow_of _ ⟨7, by decide⟩ 11#4 ch (5#5 ++ idx) v
    rfl ?_ (by simp [referenceTable, noteRows, layerRows, bankRows]) h
  exact matches_messageWord _ _ _ _ _ 0x7C#7 0x00#7 rfl (by rw [group_and]; simp [messageWord, wordOf]; rfl) rfl

theorem EncodedRow.ccLayerRecStop (ch : BitVec 4) (v : BitVec 7) : EncodedRow.Statement (.ccLayerRecStop ch v) := by
  intro h
  refine encodedRow_of _ ⟨8, by decide⟩ 11#4 ch 24#7 v
    rfl ?_ (by simp [referenceTable, noteRows, layerRows, bankRows]) h
  exact matches_messageWord _ _ _ _ _ 0x7F#7 0x00#7 rfl (by simp [messageWord, wordOf]; rfl) (cond_ne_zero v (of_decide_eq_true h))

theorem EncodedRow.ccLayerRecPause (ch : BitVec 4) (v : BitVec 7) : EncodedRow.Statement (.ccLayerRecPause ch v) := by
  intro h
  refine encodedRow_of _ ⟨9, by decide⟩ 11#4 ch 25#7 v
    rfl ?_ (by simp [referenceTable, noteRows, layerRows, bankRows]) h
  exact matches_messageWord _ _ _ _ _ 0x7F#7 0x00#7 rfl (by simp [messageWord, wordOf]; rfl) (cond_ne_zero v (of_decide_eq_true h))

theorem EncodedRow.ccLayerRecRecord (ch : BitVec 4) (v : BitVec 7) : EncodedRow.Statement (.ccLayerRecRecord ch v) := by
  intro h
  refine encodedRow_of _ ⟨10, by decide⟩ 11#4 ch 26#7 v
    rfl ?_ (by simp [referenceTable, noteRows, layerRows, bankRows]) h
  exact matches_messageWord _ _ _ _ _ 0x7F#7 0x00#7 rfl (by simp [messageWord, wordOf]; rfl) (cond_ne_zero v (of_decide_eq_true h))

theorem EncodedRow.ccPower (ch : BitVec 4) (v : BitVec 7) : EncodedRow.Statement (.ccPower ch v) := by
  intro h
  refine encodedRow_of _ ⟨11, by decide⟩ 11#4 ch 27#7 v
    rfl ?_ (by simp [referenceTable, noteRows, layerRows, bankRows]) h
  exact matches_messageWord _ _ _ _ _ 0x7F#7 0x00#7 rfl (by simp [messageWord, wordOf]; rfl) (cond_ne_zero v (of_decide_eq_true h))

theorem EncodedRow.ccOscSelect (ch : BitVec 4) (idx : BitVec 2) (v : BitVec 7) : EncodedRow.Statement (.ccOscSelect ch idx v) := by
  intro h
  refine encodedRow_of _ ⟨12, by decide⟩ 11#4 ch (8#5 ++ idx) v
    rfl ?_ (by simp [referenceTable, noteRows, layerRows, bankRows]) h
  exact matches_messageWord _ _ _ _ _ 0x7C#7 0x00#7 rfl (by rw [group_and]; simp [messageWord, wordOf]; rfl) (cond_ne_zero v (of_decide_eq_true h))

theorem EncodedRow.ccOscMute (ch : BitVec 4) (idx : BitVec 2) (v : BitVec 7) : EncodedRow.Statement (.ccOscMute ch idx v) := by
  intro h
  refine encodedRow_of _ ⟨13, by decide⟩ 11#4 ch (9#5 ++ idx) v
    rfl ?_ (by simp [referenceTable, noteRows, layerRows, bankRows]) h
  exact matches_messageWord _ _ _ _ _ 0x7C#7 0x00#7 rfl (by rw [group_and]; simp [messageWord, wordOf]; rfl) (cond_ne_zero v (of_decide_eq_true h))

theorem EncodedRow.ccOscAmp (ch : BitVec 4) (idx : BitVec 2) (v : BitVec 7) : EncodedRow.Statement (.ccOscAmp ch idx v) := by
  intro h
  refine encodedRow_of _ ⟨14, by decide⟩ 11#4 ch (10#5 ++ idx) v
    rfl ?_ (by simp [referenceTable, noteRows, layerRows, bankRows]) h
  exact matches_messageWord _ _ _ _ _ 0x7C#7 0x00#7 rfl (by rw [group_and]; simp [messageWord, wordOf]; rfl) rfl

theorem EncodedRow.ccOscType (ch : BitVec 4) (v : BitVec 7) : EncodedRow.Statement (.ccOscType ch v) := by
  intro h
  refine encodedRow_of _ ⟨15, by decide⟩ 11#4 ch 44#7 v
    rfl ?_ (by simp [referenceTable, noteRows, layerRows, bankRows]) h
  exact matches_messageWord _ _ _ _ _ 0x7F#7 0x00#7 rfl (by simp [messageWord, wordOf]; rfl) (cond_ne_zero v (of_decide_eq_true h))

theorem EncodedRow.ccOctaveDown (ch : BitVec 4) (v : BitVec 7) : EncodedRow.Statement (.ccOctaveDown ch v) := by
  intro h
  refine encodedRow_of _ ⟨16, by decide⟩ 11#4 ch 45#7 v
    rfl ?_ (by simp [referenceTable, noteRows, layerRows, bankRows]) h
  exact matches_messageWord _ _ _ _ _ 0x7F#7 0x00#7 rfl (by simp [messageWord, wordOf]; rfl) (cond_ne_zero v (of_decide_eq_true h))

theorem EncodedRow.ccOctaveUp (ch : BitVec 4) (v : BitVec 7) : EncodedRow.Statement (.ccOctaveUp ch v) := by
  intro h
  refine encodedRow_of _ ⟨17, by decide⟩ 11#4 ch 46#7 v
    rfl ?_ (by simp [referenceTable, noteRows, layerRows, bankRows]) h
  exact matches_messageWord _ _ _ _ _ 0x7F#7 0x00#7 rfl (by simp [messageWord, wordOf]; rfl) (cond_ne_zero v (of_decide_eq_true h))

theorem EncodedRow.ccModAmp (ch : BitVec 4) (v : BitVec 7) : EncodedRow.Statement (.ccModAmp ch v) := by
  intro h
  refine encodedRow_of _ ⟨18, by decide⟩ 11#4 ch 48#7 v
    rfl ?_ (by simp [referenceTable, noteRows, layerRows, bankRows]) h
  exact matches_messageWord _ _ _ _ _ 0x7F#7 0x00#7 rfl (by simp [messageWord, wordOf]; rfl) (cond_ne_zero v (of_decide_eq_true h))

theorem EncodedRow.ccModPitch (ch : BitVec 4) (v : BitVec 7) : EncodedRow.Statement (.ccModPitch ch v) := by
  intro h
  refine encodedRow_of _ ⟨19, by decide⟩ 11#4 ch 49#7 v
    rfl ?_ (by simp [referenceTable, noteRows, layerRows, bankRows]) h
  exact matches_messageWord _ _ _ _ _ 0x7F#7 0x00#7 rfl (by simp [messageWord, wordOf]; rfl) (cond_ne_zero v (of_decide_eq_true h))

theorem EncodedRow.ccModFilter (ch : BitVec 4) (v : BitVec 7) : EncodedRow.Statement (.ccModFilter ch v) := by
  intro h
  refine encodedRow_of _ ⟨20, by decide⟩ 11#4 ch 50#7 v
    rfl ?_ (by simp [referenceTable, noteRows, layerRows, bankRows]) h
  exact matches_messageWord _ _ _ _ _ 0x7F#7 0x00#7 rfl (by simp [messageWord, wordOf]; rfl) (cond_ne_zero v (of_decide_eq_true h))

theorem EncodedRow.ccEnvelope (ch : BitVec 4) (idx : BitVec 2) (v : BitVec 7) : EncodedRow.Statement (.ccEnvelope ch idx v) := by
  intro h
  refine encodedRow_of _ ⟨21, by decide⟩ 11#4 ch (13#5 ++ idx) v
    rfl ?_ (by simp [referenceTable, noteRows, layerRows, bankRows]) h
  exact matches_messageWord _ _ _ _ _ 0x7C#7 0x00#7 rfl (by rw [group_and]; simp [messageWord, wordOf]; rfl) rfl

theorem EncodedRow.ccLfoSpeed (ch : BitVec 4) (v : BitVec 7) : EncodedRow.Statement (.ccLfoSpeed ch v) := by
  intro h
  refine encodedRow_of _ ⟨22, by decide⟩ 11#4 ch 56#7 v
    rfl ?_ (by simp [referenceTable, noteRows, layerRows, bankRows]) h
  exact matches_messageWord _ _ _ _ _ 0x7F#7 0x00#7 rfl (by simp [messageWord, wordOf]; rfl) rfl

theorem EncodedRow.ccLfoAmp (ch : BitVec 4) (v : BitVec 7) : EncodedRow.Statement (.ccLfoAmp ch v) := by
  intro h
  refine encodedRow_of _ ⟨23, by decide⟩ 11#4 ch 57#7 v
    rfl ?_ (by simp [referenceTable, noteRows, layerRows, bankRows]) h
  exact matches_messageWord _ _ _ _ _ 0x7F#7 0x00#7 rfl (by simp [messageWord, wordOf]; rfl) rfl

theorem EncodedRow.ccFilterCutoff (ch : BitVec 4) (v : BitVec 7) : EncodedRow.Statement (.ccFilterCutoff ch v) := by
  intro h
  refine encodedRow_of _ ⟨24, by decide⟩ 11#4 ch 74#7 v
    rfl ?_ (by simp [referenceTable, noteRows, layerRows, bankRows]) h
  exact matches_messageWord _ _ _ _ _ 0x7F#7 0x00#7 rfl (by simp [messageWord, wordOf]; rfl) rfl

theorem EncodedRow.noMatch (w : MsgWord) : EncodedRow.Statement (.noMatch w) := by
  intro _
  exact Or.inl (by rw [wordOf_bytes])

theorem EncodedRow.buf : EncodedRow.Statement .buf := fun _ => rfl

theorem EncodedRow.actMasterVol (param : Int) (value : Num64) : EncodedRow.Statement (.actMasterVol param value) := fun _ => ⟨_, rfl, rfl, rfl, rfl⟩

theorem EncodedRow.actAddNote (param : Int) (value : Num64) : EncodedRow.Statement (.actAddNote param value) := fun _ => ⟨_, rfl, rfl, rfl, rfl⟩

theorem EncodedRow.actRemoveNote (param : Int) (value : Num64) : EncodedRow.Statement (.actRemoveNote param value) := fun _ => ⟨_, rfl, rfl, rfl, rfl⟩

theorem EncodedRow.actLayerSelect (param : Int) (value : Num64) : EncodedRow.Statement (.actLayerSelect param value) := fun _ => ⟨_, rfl, rfl, rfl, rfl⟩

theorem EncodedRow.actLayerAmp (param : Int) (value : Num64) : EncodedRow.Statement (.actLayerAmp param value) := fun _ => ⟨_, rfl, rfl, rfl, rfl⟩

theorem EncodedRow.actLayerRecStop (value : Num64) : EncodedRow.Statement (.actLayerRecStop value) := fun _ => ⟨_, rfl, rfl, rfl, rfl⟩

theorem EncodedRow.actLayerRecPause (value : Num64) : EncodedRow.Statement (.actLayerRecPause value) := fun _ => ⟨_, rfl, rfl, rfl, rfl⟩

theorem EncodedRow.actLayerRecRecord (value : Num64) : EncodedRow.Statement (.actLayerRecRecord value) := fun _ => ⟨_, rfl, rfl, rfl, rfl⟩

theorem EncodedRow.actOscSelect (param : Int) (value : Num64) : EncodedRow.Statement (.actOscSelect param value) := fun _ => ⟨_, rfl, rfl, rfl, rfl⟩

theorem EncodedRow.actOscMute (param : Int) (value : Num64) : EncodedRow.Statement (.actOscMute param value) := fun _ => ⟨_, rfl, rfl, rfl, rfl⟩

theorem EncodedRow.actOscAmp (param : Int) (value : Num64) : EncodedRow.Statement (.actOscAmp param value) := fun _ => ⟨_, rfl, rfl, rfl, rfl⟩

theorem EncodedRow.actOscType (param : Int) (value : Num64) : EncodedRow.Statement (.actOscType param value) := fun _ => ⟨_, rfl, rfl, rfl, rfl⟩

theorem EncodedRow.actOscOctave (param : Int) (value : Num64) : EncodedRow.Statement (.actOscOctave param value) := fun _ => ⟨_, rfl, rfl, rfl, rfl⟩

theorem EncodedRow.actOscPitch (param : Int) (value : Num64) : EncodedRow.Statement (.actOscPitch param value) := fun _ => ⟨_, rfl, rfl, rfl, rfl⟩

theorem EncodedRow.actModSelect (param : Int) (value : Num64) : EncodedRow.Statement (.actModSelect param value) := fun _ => ⟨_, rfl, rfl, rfl, rfl⟩

theorem EncodedRow.actEnvelope (param : Int) (value : Num64) : EncodedRow.Statement (.actEnvelope param value) := fun _ => ⟨_, rfl, rfl, rfl, rfl⟩

theorem EncodedRow.actLfo (param : Int) (value : Num64) : EncodedRow.Statement (.actLfo param value) := fun _ => ⟨_, rfl, rfl, rfl, rfl⟩

theorem EncodedRow.actFilterCutoff (param : Int) (value : Num64) : EncodedRow.Statement (.actFilterCutoff param value) := fun _ => ⟨_, rfl, rfl, rfl, rfl⟩

theorem EncodedRow.actPower (param : Int) (value : Num64) : EncodedRow.Statement (.actPower param value) := fun _ => ⟨_, rfl, rfl, rfl, rfl⟩

theorem EncodedRow.actUnison (param : Int) (value : Num64) : EncodedRow.Statement (.actUnison param value) := fun _ => ⟨_, rfl, rfl, rfl, rfl⟩

theorem EncodedRow.actReserved18 (param : Int) (value : Num64) : EncodedRow.Statement (.actReserved18 param value) := fun _ => ⟨_, rfl, rfl, rfl, rfl⟩

theorem EncodedRow.actReserved19 (param : Int) (value : Num64) : EncodedRow.Statement (.actReserved19 param value) := fun _ => ⟨_, rfl, rfl, rfl, rfl⟩

theorem EncodedRow.actReserved20 (param : Int) (value : Num64) : EncodedRow.Statement (.actReserved20 param value) := fun _ => ⟨_, rfl, rfl, rfl, rfl⟩

theorem EncodedRow.actReserved21 (param : Int) (value : Num64) : EncodedRow.Statement (.actReserved21 param value) := fun _ => ⟨_, rfl, rfl, rfl, rfl⟩

theorem EncodedRow.actReserved22 (param : Int) (value : Num64) : EncodedRow.Statement (.actReserved22 param value) := fun _ => ⟨_, rfl, rfl, rfl, rfl⟩

theorem EncodedRow.actReserved23 (param : Int) (value : Num64) : EncodedRow.Statement (.actReserved23 param value) := fun _ => ⟨_, rfl, rfl, rfl, rfl⟩

theorem EncodedRow.actReserved24 (param : Int) (value : Num64) : EncodedRow.Statement (.actReserved24 param value) := fun _ => ⟨_, rfl, rfl, rfl, rfl⟩

theorem EncodedRow.actReserved25 (param : Int) (value : Num64) : EncodedRow.Statement (.actReserved25 param value) := fun _ => ⟨_, rfl, rfl, rfl, rfl⟩

theorem EncodedRow.actReserved26 (param : Int) (value : Num64) : EncodedRow.Statement (.actReserved26 param value) := fun _ => ⟨_, rfl, rfl, rfl, rfl⟩

theorem EncodedRow.actReserved27 (param : Int) (value : Num64) : EncodedRow.Statement (.actReserved27 param value) := fun _ => ⟨_, rfl, rfl, rfl, rfl⟩

theorem EncodedRow.actReserved28 (param : Int) (value : Num64) : EncodedRow.Statement (.actReserved28 param value) := fun _ => ⟨_, rfl, rfl, rfl, rfl⟩

theorem EncodedRow.actReserved29 (param : Int) (value : Num64) : EncodedRow.Statement (.actReserved29 param value) := fun _ => ⟨_, rfl, rfl, rfl, rfl⟩

theorem EncodedRow.actReserved30 (param : Int) (value : Num64) : EncodedRow.Statement (.actReserved30 param value) := fun _ => ⟨_, rfl, rfl, rfl, rfl⟩

theorem EncodedRow.actReserved31 (param : Int) (value : Num64) : EncodedRow.Statement (.actReserved31 param value) := fun _ => ⟨_, rfl, rfl, rfl, rfl⟩

end Sys2Proof.Laws
end

