-- ==== Sys2Proof/Tests/Slice0.lean ====
section
/-! SUPPORT. The model's own tests: the checks of WellFormed, the decoding of every row from words written out from the spec,
small steps whose results the spec's vectors (95_test_vectors) give, and a witness for the hypotheses of each statement. -/

namespace Sys2Proof.Tests

set_option Elab.async false

open Sys2Proof Sys2Proof.Machine Sys2Proof.Safety

/-! ## The bench (95_test_vectors section 1) -/
/-- 0.5. -/
def half : Num64 := 0x3FE0000000000000#64

/-- The open parameters of the bench, with the kernel K_T. -/
def benchOpen : OpenParams where
  bufferSamplesLess1 := 3
  sampleRateLess1 := 44099
  maxRecordingLess1 := 15
  maxCutoffRaw := 0x40D3880000000000#64
  lfoSpeedMaxRaw := 0x4034000000000000#64
  tsBitsLess32 := some 0
  paramBitsLess8 := 0
  octBitsLess8 := some 0
  voiceKernel := fun _ _ _ p releasing => { buf := fun _ => half, phase := p + 1, kernelDone := releasing }
  voiceInit := fun _ => 0
  releaseStart := fun p => p
  nanSampleRaw := fun _ _ => Num64.zero
  nanCutoffRaw := fun _ => Num64.zero

/-- The bench: the references of the spec, and A4 at key 69. -/
def bench : Config := Config.ofOpen benchOpen 69

/-- The state after reset on the bench. -/
def start : Result := .next (State.initial bench)

/-- An action applied on the bench to what went before. -/
def act (code : ActionCode) (p : Int) (x : Num64) (o : Result) : Result :=
  match o with
  | .next s => applyAction bench ⟨code, p, x⟩ s
  | .fault f => .fault f
  | .refused r => .refused r

/-- A buffer request on the bench. -/
def req (o : Result) : Result :=
  match o with
  | .next s => synthNextBuffer bench s
  | .fault f => .fault f
  | .refused r => .refused r

/-- A field of the state that an answer leaves. -/
def look {α : Type} (f : State → α) (o : Result) : Option α :=
  match o with
  | .next s => some (f s)
  | .fault _ => none
  | .refused _ => none

/-- The Bank `b` of Layer 0. -/
def bank0 (b : Fin 4) (s : State) : Bank := (s.layer.get 0).bank.get b
/-! ## WellFormed: an ill-formed term for each check -/

theorem test_wf_note_on : (Instr.noteOn 0 69 0).wf = false := by decide
theorem test_wf_bend : (Instr.bend 0 0 64).wf = false := by decide
theorem test_wf_layer_buttons :
    (Instr.ccLayerSelect 0 1 0).wf = false ∧ (Instr.ccLayerRecStop 0 0).wf = false ∧
    (Instr.ccLayerRecPause 0 0).wf = false ∧ (Instr.ccLayerRecRecord 0 0).wf = false ∧
    (Instr.ccPower 0 0).wf = false ∧ (Instr.ccOscSelect 0 1 0).wf = false ∧ (Instr.ccOscMute 0 1 0).wf = false := by
  decide
theorem test_wf_bank_buttons :
    (Instr.ccOscType 0 0).wf = false ∧ (Instr.ccOctaveDown 0 0).wf = false ∧ (Instr.ccOctaveUp 0 0).wf = false ∧
    (Instr.ccModAmp 0 0).wf = false ∧ (Instr.ccModPitch 0 0).wf = false ∧ (Instr.ccModFilter 0 0).wf = false := by
  decide
/-- 30_encoding R98: `90 45 64` has a row, so it is no word of NO_MATCH. -/
theorem test_wf_no_match : (Instr.noMatch 0x904564#24).wf = false := by decide
/-- PARAM_BITS of the bench is 8: 127 fits, 128 does not (10_state R61). -/
theorem test_wf_param_width :
    bench.paramFits 127 = true ∧ bench.paramFits 128 = false ∧ bench.paramFits (-128) = true ∧
    bench.paramFits (-129) = false := by decide
/-- The checks of 30_encoding R101, one action each (95_test_vectors A-SYN-5 to A-SYN-9). -/
theorem test_wf_actions :
    wellFormedAction bench ⟨.masterVol, 1, 0⟩ = false ∧ wellFormedAction bench ⟨.addNote, 128, 0⟩ = false ∧
    wellFormedAction bench ⟨.removeNote, -129, 0⟩ = false ∧ wellFormedAction bench ⟨.layerSelect, 4, 0⟩ = false ∧
    wellFormedAction bench ⟨.layerAmp, -1, 0⟩ = false ∧ wellFormedAction bench ⟨.layerRec, 3, 0⟩ = false ∧
    wellFormedAction bench ⟨.oscSelect, -1, 0⟩ = false ∧ wellFormedAction bench ⟨.oscMute, 4, 0⟩ = false ∧
    wellFormedAction bench ⟨.oscAmp, -2, 0⟩ = false ∧ wellFormedAction bench ⟨.oscType, 0, 0⟩ = false ∧
    wellFormedAction bench ⟨.oscOctave, -1, half⟩ = false ∧ wellFormedAction bench ⟨.oscPitch, 4, 0⟩ = false ∧
    wellFormedAction bench ⟨.modSelect, 3, 0⟩ = false ∧ wellFormedAction bench ⟨.envelope, 4, 0⟩ = false ∧
    wellFormedAction bench ⟨.lfo, 2, 0⟩ = false ∧ wellFormedAction bench ⟨.filterCutoff, 4, 0⟩ = false ∧
    wellFormedAction bench ⟨.power, 1, 0⟩ = false ∧ wellFormedAction bench ⟨.unison, 0, 0⟩ = false ∧
    wellFormedAction bench ⟨.reserved 2, 0, 0⟩ = false := by decide

/-! ## Decoding: every row, from words written out bit by bit -/

/-- 30_encoding R96: `1001xxxx 0kkkkkkk 0vvvvvvv`, `b2 != 0`; `1001xxxx 0kkkkkkk 00000000`; `1000xxxx 0kkkkkkk 0vvvvvvv`;
`1110xxxx 0xxxxxxx 01000000`; `1110xxxx 0xxxxxxx 0vvvvvvv`, `b2 != 64`. -/
theorem test_decode_notes :
    decodeWord 0b100100000100010101100100#24 = .noteOn 0 69 100 ∧
    decodeWord 0b100111110111111101111111#24 = .noteOn 15 127 127 ∧
    decodeWord 0b100100000100010100000000#24 = .noteOnZero 0 69 ∧
    decodeWord 0b100010100011110000000000#24 = .noteOff 10 60 0 ∧
    decodeWord 0b111000000111111101000000#24 = .bendCentre 0 127 ∧
    decodeWord 0b111000000111111101000001#24 = .bend 0 127 65 ∧
    decodeWord 0b111000000000000000111111#24 = .bend 0 0 63 := by decide

/-- 30_encoding R97, the Synth and Layer controls: `1011xxxx`, the controller, the value. -/
theorem test_decode_layer_controls :
    decodeWord 0b101101010000011101111111#24 = .ccMasterVol 5 127 ∧
    decodeWord 0b101100000001001100000001#24 = .ccLayerSelect 0 3 1 ∧
    decodeWord 0b101100000001011100000000#24 = .ccLayerAmp 0 3 0 ∧
    decodeWord 0b101100000001100001111111#24 = .ccLayerRecStop 0 127 ∧
    decodeWord 0b101100000001100100000001#24 = .ccLayerRecPause 0 1 ∧
    decodeWord 0b101100000001101001111111#24 = .ccLayerRecRecord 0 127 ∧
    decodeWord 0b101100000001101101111111#24 = .ccPower 0 127 ∧
    decodeWord 0b101100000010001101111111#24 = .ccOscSelect 0 3 127 ∧
    decodeWord 0b101100000010010001111111#24 = .ccOscMute 0 0 127 ∧
    decodeWord 0b101100000010101101000000#24 = .ccOscAmp 0 3 64 := by decide

/-- 30_encoding R97, the Bank controls. -/
theorem test_decode_bank_controls :
    decodeWord 0b101100000010110001111111#24 = .ccOscType 0 127 ∧
    decodeWord 0b101100000010110101111111#24 = .ccOctaveDown 0 127 ∧
    decodeWord 0b101100000010111001000000#24 = .ccOctaveUp 0 64 ∧
    decodeWord 0b101100000011000001111111#24 = .ccModAmp 0 127 ∧
    decodeWord 0b101100000011000101111111#24 = .ccModPitch 0 127 ∧
    decodeWord 0b101100000011001001111111#24 = .ccModFilter 0 127 ∧
    decodeWord 0b101100000011011001000000#24 = .ccEnvelope 0 2 64 ∧
    decodeWord 0b101100000011100001000000#24 = .ccLfoSpeed 0 64 ∧
    decodeWord 0b101100000011100101000000#24 = .ccLfoAmp 0 64 ∧
    decodeWord 0b101100000100101000100000#24 = .ccFilterCutoff 0 32 := by decide

/-- 30_encoding R98, 95_test_vectors D-NM-1 to D-NM-16 and the button releases. -/
theorem test_decode_no_match :
    ([0x908040#24, 0x904580#24, 0xB00780#24, 0xB0007F#24, 0xB02F7F#24, 0xB0337F#24, 0xB03A7F#24, 0xB04B7F#24,
      0xB07B00#24, 0xA04540#24, 0xC00500#24, 0xD04000#24, 0xF00000#24, 0xF80000#24, 0x456400#24, 0x000000#24,
      0xB01000#24, 0xB01800#24, 0xB01B00#24, 0xB02700#24].all
      (fun w => decide (decodeWord w = .noMatch w) && !recognized w)) = true := by
  decide +kernel

/-- 30_encoding R100: the codes 0 to 8; code 5 by its param. -/
theorem test_decode_actions_low :
    decodeTxn (.bus 0 0 half) = .ok (.actMasterVol 0 half) ∧ decodeTxn (.bus 1 (-69) half) = .ok (.actAddNote (-69) half) ∧
    decodeTxn (.bus 2 127 half) = .ok (.actRemoveNote 127 half) ∧
    decodeTxn (.bus 3 2 half) = .ok (.actLayerSelect 2 half) ∧ decodeTxn (.bus 4 1 half) = .ok (.actLayerAmp 1 half) ∧
    decodeTxn (.bus 5 0 half) = .ok (.actLayerRecStop half) ∧ decodeTxn (.bus 5 1 half) = .ok (.actLayerRecPause half) ∧
    decodeTxn (.bus 5 2 half) = .ok (.actLayerRecRecord half) ∧ decodeTxn (.bus 5 3 half) = .error .layerRecParam ∧
    decodeTxn (.bus 6 3 half) = .ok (.actOscSelect 3 half) ∧ decodeTxn (.bus 7 (-1) half) = .ok (.actOscMute (-1) half) ∧
    decodeTxn (.bus 8 3 half) = .ok (.actOscAmp 3 half) :=
  ⟨rfl, rfl, rfl, rfl, rfl, rfl, rfl, rfl, rfl, rfl, rfl, rfl⟩

/-- 30_encoding R100: the codes 9 to 17. -/
theorem test_decode_actions_high :
    decodeTxn (.bus 9 (-1) half) = .ok (.actOscType (-1) half) ∧
    decodeTxn (.bus 10 (-1) half) = .ok (.actOscOctave (-1) half) ∧
    decodeTxn (.bus 11 (-1) half) = .ok (.actOscPitch (-1) half) ∧
    decodeTxn (.bus 12 2 half) = .ok (.actModSelect 2 half) ∧ decodeTxn (.bus 13 3 half) = .ok (.actEnvelope 3 half) ∧
    decodeTxn (.bus 14 1 half) = .ok (.actLfo 1 half) ∧ decodeTxn (.bus 15 3 half) = .ok (.actFilterCutoff 3 half) ∧
    decodeTxn (.bus 16 0 half) = .ok (.actPower 0 half) ∧ decodeTxn (.bus 17 0 half) = .ok (.actUnison 0 half) ∧
    decodeTxn .buf = .ok .buf :=
  ⟨rfl, rfl, rfl, rfl, rfl, rfl, rfl, rfl, rfl, rfl⟩

/-- 30_encoding R100: the reserved codes 18 to 31. -/
theorem test_decode_actions_reserved :
    decodeTxn (.bus 18 0 half) = .ok (.actReserved18 0 half) ∧ decodeTxn (.bus 19 0 half) = .ok (.actReserved19 0 half) ∧
    decodeTxn (.bus 20 0 half) = .ok (.actReserved20 0 half) ∧ decodeTxn (.bus 21 0 half) = .ok (.actReserved21 0 half) ∧
    decodeTxn (.bus 22 0 half) = .ok (.actReserved22 0 half) ∧ decodeTxn (.bus 23 0 half) = .ok (.actReserved23 0 half) ∧
    decodeTxn (.bus 24 0 half) = .ok (.actReserved24 0 half) ∧ decodeTxn (.bus 25 0 half) = .ok (.actReserved25 0 half) ∧
    decodeTxn (.bus 26 0 half) = .ok (.actReserved26 0 half) ∧ decodeTxn (.bus 27 0 half) = .ok (.actReserved27 0 half) ∧
    decodeTxn (.bus 28 0 half) = .ok (.actReserved28 0 half) ∧ decodeTxn (.bus 29 0 half) = .ok (.actReserved29 0 half) ∧
    decodeTxn (.bus 30 0 half) = .ok (.actReserved30 0 half) ∧ decodeTxn (.bus 31 0 half) = .ok (.actReserved31 0 half) :=
  ⟨rfl, rfl, rfl, rfl, rfl, rfl, rfl, rfl, rfl, rfl, rfl, rfl, rfl, rfl⟩

/-- The numbering of spec/opcode_table.json: NOTE_ON's word, ADD_NOTE's code byte, BUF. -/
theorem test_table_words :
    decodeTableWord 24 0x904564 = some (.noteOn 0 69 100) ∧ decodeTableWord 8 1 = some (.actAddNote 0 0) ∧
    decodeTableWord 0 0 = some .buf ∧ decodeTableWord 16 0 = none := by decide
/-! ## What the messages derive (95_test_vectors section 3) -/
/-- D-NOTE-3. -/
theorem test_derive_note_on_low : busAction bench (.noteOn 0 0 1) = some ⟨.addNote, -69, 0x3FF0000000000000#64⟩ := by decide +kernel
/-- D-NOTE-6: the key is absolute. -/
theorem test_derive_note_off : busAction bench (.noteOff 0 69 64) = some ⟨.removeNote, 69, 0x4050000000000000#64⟩ := by decide +kernel
/-- D-BEND-3. -/
theorem test_derive_bend_low : busAction bench (.bend 0 0 0) = some ⟨.oscPitch, -1, 0xC028000000000000#64⟩ := by decide +kernel
/-- D-BEND-9. -/
theorem test_derive_bend_high : busAction bench (.bend 0 0 127) = some ⟨.oscPitch, -1, 0x4027A00000000000#64⟩ := by decide +kernel
/-- D-CC-3. -/
theorem test_derive_master_vol : busAction bench (.ccMasterVol 0 64) = some ⟨.masterVol, 0, 0x3FE0204081020408#64⟩ := by decide +kernel
/-- D-CC-7 with Layer 3. -/
theorem test_derive_layer_amp : busAction bench (.ccLayerAmp 0 3 127) = some ⟨.layerAmp, 3, 0x3FF0000000000000#64⟩ := by decide +kernel
/-- D-CC-21. -/
theorem test_derive_osc_amp : busAction bench (.ccOscAmp 0 3 64) = some ⟨.oscAmp, 3, 0x3FE0204081020408#64⟩ := by decide +kernel
/-- D-CC-23. -/
theorem test_derive_octave_down : busAction bench (.ccOctaveDown 0 127) = some ⟨.oscOctave, -1, 0xBFF0000000000000#64⟩ := by decide +kernel
/-- D-CC-24. -/
theorem test_derive_octave_up : busAction bench (.ccOctaveUp 0 127) = some ⟨.oscOctave, -1, 0x3FF0000000000000#64⟩ := by decide +kernel
/-- D-CC-30. -/
theorem test_derive_envelope : busAction bench (.ccEnvelope 0 2 64) = some ⟨.envelope, 2, 0x3FE0204081020408#64⟩ := by decide +kernel
/-- D-CC-33. -/
theorem test_derive_lfo_speed : busAction bench (.ccLfoSpeed 0 64) = some ⟨.lfo, 0, 0x40242850A142850A#64⟩ := by decide +kernel
/-- 40_decoder R133, `B0 38 00`: 0 Hz, and a raw maximum that is infinite is out of bounds (60_exceptions R275). -/
theorem test_derive_lfo_speed_zero :
    busAction { bench with lfoSpeedMaxRaw := Num64.inf false } (.ccLfoSpeed 0 0) = some ⟨.lfo, 0, 0⟩ := by decide +kernel
/-- D-CC-34. -/
theorem test_derive_lfo_amp : busAction bench (.ccLfoAmp 0 64) = some ⟨.lfo, 1, 0x3FE0204081020408#64⟩ := by decide +kernel
/-- D-CC-36. -/
theorem test_derive_cutoff_curve : busAction bench (.ccFilterCutoff 0 64) = some ⟨.filterCutoff, -1, 0x3FC3DE90FAC12FB2#64⟩ := by decide +kernel
/-- D-CC-39. -/
theorem test_derive_cutoff_least : busAction bench (.ccFilterCutoff 0 1) = some ⟨.filterCutoff, -1, 0x3EC007EA70EE302A#64⟩ := by decide +kernel
/-- D-CC-6, D-CC-10, D-CC-14, D-CC-19: a button release is no action. -/
theorem test_derive_releases :
    busAction bench (.ccLayerSelect 0 0 0) = none ∧ busAction bench (.ccLayerRecStop 0 0) = none ∧
    busAction bench (.ccPower 0 0) = none ∧ busAction bench (.ccOscMute 0 3 0) = none := by decide

/-- D-CC-9, D-CC-11, D-CC-12, D-CC-13, D-CC-22, D-CC-25 to D-CC-27: the buttons. -/
theorem test_derive_buttons :
    busAction bench (.ccLayerRecStop 0 127) = some ⟨.layerRec, 0, 0⟩ ∧
    busAction bench (.ccLayerRecPause 0 127) = some ⟨.layerRec, 1, 0⟩ ∧
    busAction bench (.ccLayerRecRecord 0 127) = some ⟨.layerRec, 2, 0⟩ ∧
    busAction bench (.ccPower 0 127) = some ⟨.power, 0, 0⟩ ∧
    busAction bench (.ccOscType 0 127) = some ⟨.oscType, -1, 0⟩ ∧
    busAction bench (.ccModAmp 0 127) = some ⟨.modSelect, 0, 0⟩ ∧
    busAction bench (.ccModPitch 0 127) = some ⟨.modSelect, 1, 0⟩ ∧
    busAction bench (.ccModFilter 0 127) = some ⟨.modSelect, 2, 0⟩ := by decide
/-! ## Actions (95_test_vectors section 4) -/
/-- A-SYN-1. -/
theorem test_master_vol :
    look State.masterAmp (start |> act .masterVol 0 half) = some half := by decide +kernel
/-- A-SYN-2. -/
theorem test_layer_select :
    look State.selLayer (start |> act .layerSelect 2 0) = some 2 := by decide +kernel
/-- A-SYN-3: the named Layer, not the selected one. -/
theorem test_layer_amp :
    look (fun s => ((s.layer.get 1).layerAmp, (s.layer.get 0).layerAmp)) (start |> act .layerAmp 1 0x3FD0000000000000#64) =
      some (0x3FD0000000000000#64, 0x3FF0000000000000#64) := by decide +kernel
/-- A-SYN-4. -/
theorem test_power :
    look portPowerOff (start |> act .power 0 0 |> act .power 0 0) = some true := by decide +kernel
/-- A-SYN-5. -/
theorem test_unison_refused :
    (match start |> act .unison 0 0 with | .refused .illFormedAction => true | _ => false) = true := by decide +kernel
/-- A-SYN-6. -/
theorem test_reserved_refused :
    (match start |> act (.reserved 2) 0 0 with | .refused .illFormedAction => true | _ => false) = true := by decide +kernel
/-- A-NOTE-1. -/
theorem test_add_note :
    look (fun s => ((bank0 3 s).slots.get 0, (bank0 3 s).noteMap)) (start |> act .addNote 0 0) =
      some (some { note := 0, phase := 0, releasing := false, done := false }, [(69, 0)]) := by decide +kernel
/-- A-NOTE-2: a key already held starts no second voice; A-NOTE-3: the next key takes the next slot. -/
theorem test_add_note_held :
    look (fun s => ((bank0 0 s).noteMap, voiceCount (bank0 0 s)))
      (start |> act .addNote 0 0 |> act .addNote 0 0 |> act .addNote 3 0) = some ([(69, 0), (72, 1)], 2) := by decide +kernel
/-- A-NOTE-4. -/
theorem test_remove_note :
    look (fun s => ((bank0 1 s).noteMap, voiceCount (bank0 1 s), liveCount (bank0 1 s)))
      (start |> act .addNote 0 0 |> act .addNote 3 0 |> act .removeNote 69 0 |> act .removeNote 69 0) =
      some ([(72, 1)], 2, 1) := by decide +kernel
/-- A-NOTE-7: a muted Bank takes no note; the removal reaches every Bank. -/
theorem test_note_fan_out :
    look (fun s => (voiceCount (bank0 0 s), voiceCount (bank0 1 s), liveCount (bank0 0 s)))
      (start |> act .oscMute 1 0 |> act .addNote 0 0 |> act .removeNote 69 0) = some (1, 0, 0) := by decide +kernel
/-- A-REC-1. -/
theorem test_rec_record :
    look (fun s => ((s.layer.get 0).recording, (s.layer.get 0).recorder.armed)) (start |> act .layerRec 2 0) =
      some (true, false) := by decide +kernel
/-- A-REC-3. -/
theorem test_rec_pause :
    look (fun s => (s.layer.get 0).recorder.paused) (start |> act .layerRec 1 0) = some true := by decide +kernel
/-- A-REC-4, the first press. -/
theorem test_rec_stop_once :
    look (fun s => ((bank0 0 s).params.amplitude, voiceCount (bank0 0 s), (s.layer.get 0).presses))
      (start |> act .oscAmp 0 half |> act .addNote 0 0 |> act .layerRec 0 0) = some (half, 0, true) := by decide +kernel
/-- A-REC-6: MASTER_VOL clears no counter, so the second press resets the Banks. -/
theorem test_rec_stop_twice :
    look (fun s => ((bank0 0 s).params.amplitude, (s.layer.get 0).presses))
      (start |> act .oscAmp 0 half |> act .layerRec 0 0 |> act .masterVol 0 half |> act .layerRec 0 0) =
      some (0x3FF0000000000000#64, false) := by decide +kernel
/-- A-BANK-1, A-BANK-2. -/
theorem test_osc_select :
    look (fun s => ((bank0 3 s).params.waveform, (bank0 0 s).params.waveform))
      (start |> act .oscSelect 3 0 |> act .oscType (-1) 0) = some (1, 0) := by decide +kernel
/-- A-BANK-3. -/
theorem test_osc_type_wraps :
    look (fun s => (bank0 0 s).params.waveform)
      (start |> act .oscType (-1) 0 |> act .oscType (-1) 0 |> act .oscType (-1) 0 |> act .oscType (-1) 0) = some 0 := by decide +kernel
/-- A-BANK-4, one press. -/
theorem test_osc_mute :
    look (fun s => ((s.layer.get 0).mute.get 0, (s.layer.get 0).mute.get 1)) (start |> act .oscMute (-1) 0) =
      some (true, false) := by decide +kernel
/-- A-BANK-17. -/
theorem test_osc_amp :
    look (fun s => (bank0 0 s).params.amplitude) (start |> act .oscAmp (-1) 0x3FD0000000000000#64) = some 0x3FD0000000000000#64 := by decide +kernel
/-- A-BANK-6. -/
theorem test_osc_octave :
    look (fun s => ((bank0 0 s).params.octave, bench.pitch (bank0 0 s).params))
      (start |> act .oscOctave (-1) 0xBFF0000000000000#64 |> act .oscOctave (-1) 0xBFF0000000000000#64) = some (-2, 0xC038000000000000#64) := by decide +kernel
/-- A-BANK-18, the octave reached by one action from the bus. -/
theorem test_osc_octave_overflow :
    (match start |> act .oscOctave (-1) 0x405FC00000000000#64 |> act .oscOctave (-1) 0x3FF0000000000000#64 with
      | .fault .octaveOverflow => true | _ => false) = true := by decide +kernel
/-- A-BANK-7. -/
theorem test_osc_pitch :
    look (fun s => ((bank0 0 s).params.steps, bench.pitch (bank0 0 s).params))
      (start |> act .oscOctave (-1) 0x3FF0000000000000#64 |> act .oscPitch (-1) 0xC028000000000000#64) = some (0xC028000000000000#64, 0x0000000000000000#64) := by decide +kernel
/-- A-BANK-8. -/
theorem test_osc_pitch_target :
    look (fun s => ((bank0 2 s).params.steps, (bank0 0 s).params.steps)) (start |> act .oscPitch 2 0x4018000000000000#64) =
      some (0x4018000000000000#64, 0) := by decide +kernel
/-- A-BANK-9. -/
theorem test_envelope :
    look (fun s => ((bank0 0 s).params.envPitch.attackMs, (bank0 0 s).params.envPitch.sustain,
        (bank0 0 s).params.envAmp.sustain))
      (start |> act .modSelect 1 0 |> act .envelope 0 half |> act .envelope 2 half) =
      some (0x4088ABB7372A6C52#64, half, 0x3FF0000000000000#64) := by decide +kernel
/-- E-ENV-3. -/
theorem test_envelope_curve_top :
    bench.num.envTime 0x3FF0000000000000#64 = 0x40AFCFE4135A0A59#64 := by decide +kernel
/-- A-BANK-10: the filter has no LFO. -/
theorem test_lfo_filter :
    look (fun s => (bank0 0 s).params.lfoAmp) (start |> act .modSelect 2 0 |> act .lfo 0 0x4014000000000000#64) = some ⟨0, 0⟩ := by decide +kernel
/-- A-BANK-12. -/
theorem test_lfo :
    look (fun s => (bank0 0 s).params.lfoPitch) (start |> act .modSelect 1 0 |> act .lfo 0 0x4024000000000000#64) =
      some ⟨0x4024000000000000#64, 0⟩ := by decide +kernel
/-- A-BANK-13. -/
theorem test_filter_cutoff :
    look (fun s => (bank0 0 s).params.cutoffHz) (start |> act .filterCutoff (-1) 0x3FC3DE90FAC12FB2#64) =
      some 0x40A8412FFA18D2B9#64 := by decide +kernel
/-- A-BANK-14, A-BANK-16. -/
theorem test_filter_cutoff_clamped :
    look (fun s => (bank0 0 s).params.cutoffHz) (start |> act .filterCutoff (-1) 0) = some 0x4059000000000000#64 ∧
    look (fun s => (bank0 0 s).params.cutoffHz) (start |> act .filterCutoff (-1) 0x4000000000000000#64) = some 0x40D3880000000000#64 := by decide +kernel
/-! ## Recorder and buffers (95_test_vectors sections 5 to 7) -/

/-- A note action, as the vectors' `a`. -/
def noteA : Action := ⟨.addNote, 0, 0⟩

/-- A Recorder with a loop of one event. -/
def looped : Recorder := { timestamp := 2, loopLength := 5, events := [(1, noteA)], armed := false, paused := true }

/-- T-REC-8: the arm tick clears. -/
theorem test_tick_arms :
    (match tick bench true looped with
      | .ok (R, none) => decide (R = { timestamp := 1, loopLength := 5, events := [], armed := true, paused := false })
      | _ => false) = true := by decide +kernel

/-- T-REC-11: the overflow. -/
theorem test_tick_overflow :
    (match tick bench true { looped with armed := true, paused := false, timestamp := 2 ^ 32 - 1 } with
      | .error .timestampOverflow => true
      | _ => false) = true := by decide +kernel

/-- T-REC-4: a paused tick does nothing. -/
theorem test_tick_paused :
    (match tick bench false looped with | .ok (R, none) => decide (R = looped) | _ => false) = true := by decide +kernel

/-- T-REC-1, steps 5 and 6 of a shorter loop: the disarm tick freezes the length and replays tick 1. -/
theorem test_tick_disarms :
    (match tick bench false { looped with armed := true, paused := false, timestamp := 10 } with
      | .ok (R, some a) => decide (R.loopLength = 10 ∧ R.timestamp = 1 ∧ a = noteA)
      | _ => false) = true := by decide +kernel

/-- T-REC-9, step 2: the first event moves the origin. -/
theorem test_record_first :
    record bench noteA { looped with armed := true, paused := false, events := [], timestamp := 5 } =
      { timestamp := 1, loopLength := 5, events := [(1, noteA)], armed := true, paused := false } := by decide +kernel

/-- T-REC-6: stop leaves the loop's length. -/
theorem test_stop :
    stopRecorder looped = { timestamp := 0, loopLength := 5, events := [], armed := false, paused := false } := by decide +kernel

/-- M-5, program P1: one note in the four Banks of Layer 0 gives 1023 = 0x03FF per sample, low byte first. -/
theorem test_buffer_note :
    look State.audioOut (start |> act .addNote 0 0 |> req) =
      some [0xFF, 0x03, 0xFF, 0x03, 0xFF, 0x03, 0xFF, 0x03] := by decide +kernel

/-- 43_mixer R244: a fresh block answers zeros, and its Recorders have ticked once. -/
theorem test_buffer_silent :
    look (fun s => (s.audioOut, (s.layer.get 3).recorder.timestamp)) (start |> req) =
      some ([0, 0, 0, 0, 0, 0, 0, 0], 1) := by decide +kernel

/-- 43_mixer R231, R233: a released voice sounds one buffer more under K_T, is then done, and is pruned at the next. -/
theorem test_buffer_release :
    look (fun s => voiceCount (bank0 0 s)) (start |> act .addNote 0 0 |> act .removeNote 69 0 |> req) = some 1 ∧
    look (fun s => voiceCount (bank0 0 s)) (start |> act .addNote 0 0 |> act .removeNote 69 0 |> req |> req) = some 0 := by
  decide +kernel

/-- 43_mixer R242: q = trunc(-0.0125 * 32767) = -409, bytes 67 FE. -/
theorem test_pcm_negative : sampleBytes (bench.pcmQuant 0xBF8999999999999A#64) = [0x67, 0xFE] := by decide +kernel

/-- 43_mixer R241: the clamp. -/
theorem test_clamp :
    clampSample bench 0 0 0x3FF8000000000000#64 = Num64.one ∧ clampSample bench 0 0 0xC01C000000000000#64 = Num64.negOne := by decide +kernel

/-- 70_reset R290: after reset the block waits; a POWER message placed before it runs next. -/
theorem test_step_waits : step State.reset = .next State.reset := rfl
theorem test_step_runs :
    look State.powerOff (step (State.reset.withFetchWord 24 0xB01B7F)) = some true := by decide

/-- 30_encoding R101: OSC_TYPE with param 0, the action of the opcode table's code byte alone, is refused. -/
theorem test_step_refuses :
    (match step (State.reset.withFetchWord 8 9) with | .refused .illFormedAction => true | _ => false) = true := by decide +kernel
/-! ## Witnesses: a state and operands that meet the hypotheses of each statement -/

/-- A state other than reset's that meets the invariant. -/
def sample : State := { State.reset with selLayer := 1, powerOff := true }

theorem sample_inv : StateInv Config.chip sample := by
  intro l
  simp only [sample, State.reset, State.initial, Laws.quad_get_all]
  exact Laws.layerInv_initial _

/-- `sample` with a Recorder in Layer 2 that a buffer transaction takes from armed to idle. -/
def disarming : State :=
  sample.setLayer 2
    { Layer.initial Config.chip with
      recorder := { timestamp := 3, loopLength := 9, events := [], armed := true, paused := false } }

/-- `sample` with a Recorder in Layer 2 that replays a note at its next tick. -/
def replaying (code : ActionCode) : State :=
  sample.setLayer 2
    { Layer.initial Config.chip with
      recorder := { timestamp := 0, loopLength := 1, events := [(1, ⟨code, 0, 0⟩)], armed := false, paused := false } }

theorem replaying_inv (code : ActionCode) (h : isNoteAction ⟨code, 0, 0⟩ = true) : StateInv Config.chip (replaying code) := by
  refine Laws.stateInv_setLayer _ _ _ _ sample_inv ⟨⟨rfl, ?_, ?_, fun h => Bool.noConfusion h, Laws.tsFits_zero _, Laws.tsFits_one _⟩,
    (Laws.layerInv_initial Config.chip).bank⟩
  · exact Nat.succ_le_of_lt (Nat.succ_pos _)
  · intro n a ha
    simp only [KMap.get] at ha
    split at ha
    · cases ha
      exact h
    · cases ha

/-- A buffer transaction on `sample` is answered. -/
theorem sample_buf : ∃ t, exec .buf sample = .next t := ⟨_, rfl⟩
theorem disarming_buf : ∃ t, exec .buf disarming = .next t ∧ (t.layer.get 2).recorder.loopLength = 3 := ⟨_, rfl, rfl⟩
theorem replaying_buf : ∃ t, exec .buf (replaying .addNote) = .next t ∧ (t.layer.get 2).presses = false := ⟨_, rfl, rfl⟩

theorem witness_EncodedInstructionDecodes :
    (Instr.noteOn 0 69 1).wf = true ∧ (Instr.bend 0 0 63).wf = true ∧ (Instr.ccPower 15 127).wf = true ∧
    (Instr.noMatch 0xF00000#24).wf = true ∧ Instr.buf.wf = true ∧ (Instr.actLfo 1 Num64.one).wf = true := by decide +kernel

theorem witness_DecodedTransactionReencodes :
    decodeTxn (.midi 0x90 0x45 0x64) = .ok (.noteOn 0 69 100) ∧ decodeTxn (.bus 5 2 0) = .ok (.actLayerRecRecord 0) ∧
    decodeTxn .buf = .ok .buf := ⟨rfl, rfl, rfl⟩

/-- A row of no reference table: All Sound Off (`B0 7B 00`) takes the master amplitude to 0. -/
def soundOff : DecodeRow := ⟨"SOUND_OFF", 0xB07B00#24, 0xF0FFFF#24, .eq 0, fun _ => .actMasterVol 0 Num64.zero⟩

/-- The bench with another DecodeTable. -/
def rebound : Config := { bench with decodeTable := [soundOff] }

theorem rebound_admissible : AdmissibleTable rebound where
  disjoint := List.pairwise_singleton _ _
  noBuf r hr w := by
    rw [List.mem_singleton.mp hr]
    exact Instr.noConfusion
  wellFormed r hr w a ha := by
    rw [List.mem_singleton.mp hr] at ha
    cases ha
    rfl

theorem witness_TableRowsAreDisjoint :
    Config.chip.decodeTable.reverse.Perm Config.chip.decodeTable ∧ DisjointRows [soundOff] ∧ soundOff ∈ [soundOff] ∧
    soundOff.matches 0xB57B00#24 = true :=
  ⟨List.reverse_perm _, List.pairwise_singleton _ _, List.mem_singleton_self _, by decide⟩

/-- The two clauses: a row that matches, and a word no row matches; and the first runs (30_encoding R95). -/
theorem witness_StepTakesParameters :
    (place (.midi 0xB0 0x7B 0x00) sample).refusalMark = none ∧ (place (.midi 0xB0 0x7B 0x00) sample).faultRecord = none ∧
    (place (.midi 0xB0 0x7B 0x00) sample).stream = .midi 0xB0 0x7B 0x00 :: [] ∧
    AdmissibleTable rebound ∧ soundOff ∈ rebound.decodeTable ∧ soundOff.matches (wordOf 0xB0 0x7B 0x00) = true ∧
    (∀ r ∈ rebound.decodeTable, r.matches (wordOf 0x90 0x45 0x64) = false) :=
  ⟨rfl, rfl, rfl, rebound_admissible, List.mem_singleton_self _, by decide, by
    intro r hr
    rw [List.mem_singleton.mp hr]
    decide⟩

theorem test_other_table_runs :
    look State.masterAmp (stepWith rebound (place (.midi 0xB0 0x7B 0x00) sample)) = some Num64.zero ∧
    look State.masterAmp (stepWith rebound (place (.midi 0xB0 0x07 0x00) sample)) = some Num64.one := by decide +kernel

theorem witness_UnrecognizedWordsDoNothing :
    recognized 0xB07F7F#24 = false ∧ recognized 0x7FFFFF#24 = false ∧ recognized 0xEF7F7F#24 = true := by decide

theorem witness_ChannelIsIgnored : 0x904564#24 &&& 0xF0FFFF#24 = 0x9F4564#24 &&& 0xF0FFFF#24 := by decide

theorem witness_StepRunsDecodedInstruction :
    (place .buf sample).refusalMark = none ∧ (place .buf sample).faultRecord = none ∧
    (place .buf sample).stream = .buf :: [] ∧ decodeTxn .buf = .ok .buf := ⟨rfl, rfl, rfl, rfl⟩

theorem witness_StoppedRunStaysStopped :
    sample.refusalMark = none ∧ sample.faultRecord = none ∧ sample.stream = [] ∧
    (place (.bus 5 3 0) sample).stream = .bus 5 3 0 :: [] ∧ decodeTxn (.bus 5 3 0) = .error .layerRecParam :=
  ⟨rfl, rfl, rfl, rfl, rfl⟩

theorem witness_StepKeepsInvariant :
    StateInv Config.chip (place .buf sample) ∧ ∃ t, step (place .buf sample) = .next t :=
  ⟨fun l => sample_inv l, _, rfl⟩

theorem witness_PowerOffIsNeverCleared :
    (∃ t, exec (.ccPower 0 1) State.reset = .next t ∧ t.powerOff = true) ∧
    ∃ t, exec .buf sample = .next t ∧ t.powerOff = true := ⟨⟨_, rfl, rfl⟩, _, rfl, rfl⟩

theorem witness_SynthRegistersWrittenOnlyByTheirActions :
    (∃ t, exec (.ccLayerSelect 0 3 127) sample = .next t ∧ t.selLayer ≠ sample.selLayer) ∧
    ∃ t, exec (.actMasterVol 0 0) sample = .next t ∧ t.masterAmp ≠ sample.masterAmp :=
  ⟨⟨_, rfl, by decide⟩, _, rfl, by decide⟩

theorem witness_LayerRegistersWrittenOnlyByTheirActions :
    StateInv Config.chip sample ∧
    (∃ t, exec (.ccOscMute 0 3 1) sample = .next t ∧ (t.layer.get 1).mute ≠ (sample.layer.get 1).mute) ∧
    (∃ t, exec (.actLayerAmp 3 0) sample = .next t ∧ (t.layer.get 3).layerAmp ≠ (sample.layer.get 3).layerAmp) ∧
    (∃ t, exec (.actOscSelect 3 0) sample = .next t ∧ (t.layer.get 1).selBank ≠ (sample.layer.get 1).selBank) ∧
    ∃ t, exec (.ccLayerRecRecord 0 1) sample = .next t ∧ (t.layer.get 1).recording ≠ (sample.layer.get 1).recording :=
  ⟨sample_inv, ⟨_, rfl, by decide⟩, ⟨_, rfl, by decide⟩, ⟨_, rfl, by decide⟩, _, rfl, by decide⟩

theorem witness_LoopLengthWrittenOnlyAtDisarm :
    ∃ t, exec .buf disarming = .next t ∧
      (t.layer.get 2).recorder.loopLength ≠ (disarming.layer.get 2).recorder.loopLength :=
  ⟨_, rfl, by decide⟩

theorem witness_DecodedActionsAreWellFormed :
    0 ≤ bench.a4 ∧ bench.a4 ≤ 127 ∧ isMessage (.noteOn 0 127 1) = true ∧ busAction bench (.noteOn 0 127 1) = some ⟨.addNote, 58, Num64.one⟩ := by
  decide +kernel

theorem witness_InstructionAppliesItsAction : Instr.ccPower 0 1 ≠ .buf ∧ Instr.noteOnZero 0 0 ≠ .buf := by decide

theorem witness_OctaveFaultsExactlyOnOverflow : Instr.ccOctaveUp 0 1 ≠ .buf := by decide

theorem witness_BufferFaultsExactlyOnOverflow : StateInv Config.chip sample := sample_inv

theorem witness_UnboundedWidthsNeverFault :
    ({ bench with tsBitsLess32 := none, octBitsLess8 := none } : Config).tsBitsLess32 = none ∧
    ({ bench with tsBitsLess32 := none, octBitsLess8 := none } : Config).octBitsLess8 = none := ⟨rfl, rfl⟩

theorem witness_UnisonAndReservedRefused :
    isMessage (.ccPower 0 1) = true ∧ busAction Config.chip (.ccPower 0 1) = some ⟨.power, 0, 0⟩ := ⟨rfl, rfl⟩

theorem witness_PressCounterFollowsActions :
    (busAction Config.chip (.actLayerRecStop 0) = some ⟨.layerRec, 0, 0⟩ ∧
      processedBy sample ⟨.layerRec, 0, 0⟩ = some 1 ∧ ∃ t, exec (.actLayerRecStop 0) sample = .next t) ∧
    (busAction Config.chip (.actLayerAmp 3 0) = some ⟨.layerAmp, 3, 0⟩ ∧
      processedBy sample ⟨.layerAmp, 3, 0⟩ = some 3 ∧ ∃ t, exec (.actLayerAmp 3 0) sample = .next t) ∧
    (busAction Config.chip (.actMasterVol 0 0) = some ⟨.masterVol, 0, 0⟩ ∧
      processedBy sample ⟨.masterVol, 0, 0⟩ = none ∧ ∃ t, exec (.actMasterVol 0 0) sample = .next t) :=
  ⟨⟨rfl, rfl, _, rfl⟩, ⟨rfl, rfl, _, rfl⟩, rfl, rfl, _, rfl⟩

theorem witness_ActionTouchesOnlyItsLayer :
    busAction Config.chip (.actLayerAmp 3 0) = some ⟨.layerAmp, 3, 0⟩ ∧
    processedBy sample ⟨.layerAmp, 3, 0⟩ ≠ some 1 ∧ processedBy sample ⟨.layerAmp, 3, 0⟩ ≠ none ∧
    ∃ t, exec (.actLayerAmp 3 0) sample = .next t := ⟨rfl, by decide, by decide, _, rfl⟩

theorem witness_LayerSelectSelectsLayer : (1 : BitVec 7) ≠ 0 := by decide

theorem witness_PowerSetsPowerOff : (127 : BitVec 7) ≠ 0 := by decide

theorem witness_LayerAmplitudeSetsNamedLayer :
    (∃ ch idx v, Instr.ccLayerAmp 0 3 127 = .ccLayerAmp ch idx v ∧ (3 : Fin 4) = idx.toFin ∧
      normalized Config.chip 127 = normalized Config.chip v) ∧
    Instr.actLayerAmp 0 half = .actLayerAmp ((0 : Fin 4).val : Int) half := ⟨⟨0, 3, 127, rfl, rfl, rfl⟩, rfl⟩

/-- A pool whose 25 slots are taken by releasing voices. -/
def fullBank : Bank :=
  { (Bank.initial bench) with
    slots := Vector.replicate 25 (some { note := 0, phase := 0, releasing := true, done := false }) }

/-- A Bank that holds the key 69 in slot 0. -/
def heldBank : Bank := bankAdd bench 0 0 (Bank.initial bench)

/-- The clauses of ADD_NOTE: a note from the highest key, one from the bus, a recording Layer and one that is not; a held
key, a full pool, a free slot. -/
theorem witness_AddNoteReachesUnmutedBanks :
    (∃ ch k v, Instr.noteOn 0 127 1 = .noteOn ch k v ∧ (127 : Int) - Config.chip.a4 = (k.toNat : Int) - Config.chip.a4 ∧
      rawValue Config.chip 1 = rawValue Config.chip v) ∧
    Config.chip.paramFits (-128) = true ∧ Config.chip.paramFits 127 = true ∧
    (sample.layer.get sample.selLayer).mute.get 0 = false ∧
    ((toggleMute 3 (sample.layer.get 1)).mute.get 3 = true ∧ (toggleRecording (sample.layer.get 1)).recording = true ∧
      (sample.layer.get 1).recording = false) ∧
    (KMap.get heldBank.noteMap (0 + bench.a4)).isSome = true ∧ (∀ s, fullBank.slots.get s ≠ none) ∧
    LowestFree heldBank.slots 1 ∧ KMap.get heldBank.noteMap (1 + bench.a4) = none := by
  refine ⟨⟨0, 127, 1, rfl, rfl, rfl⟩, rfl, rfl, rfl, ⟨rfl, rfl, rfl⟩, by decide +kernel, by decide +kernel,
    by unfold LowestFree; decide +kernel, by decide +kernel⟩

theorem witness_RemoveNoteReachesEveryBank :
    (∃ ch n v, Instr.noteOff 0 127 0 = .noteOff ch n v ∧ (127 : Int) = (n.toNat : Int) ∧ rawValue Config.chip 0 = rawValue Config.chip v) ∧
    Config.chip.paramFits (-128) = true ∧ KMap.get heldBank.noteMap 70 = none ∧
    KMap.get heldBank.noteMap 69 = some 0 ∧
    heldBank.slots.get 0 = some { note := 0, phase := 0, releasing := false, done := false } := by
  refine ⟨⟨0, 127, 0, rfl, rfl, rfl⟩, rfl, by decide +kernel, by decide +kernel, by decide +kernel⟩

theorem witness_VoiceCountsAreBounded : BankInv bench heldBank ∧ voiceCount heldBank = 1 ∧ voiceCount fullBank = 25 :=
  ⟨Laws.bankAdd_inv _ _ _ _ (Laws.bankInv_empty _ _ (Laws.factoryBank_inv bench)), by decide +kernel, by decide +kernel⟩

theorem witness_StopButtonClearsLayer :
    (∃ ch v, Instr.ccLayerRecStop 0 1 = .ccLayerRecStop ch v ∧ v ≠ 0) ∧
    ∃ x, Instr.actLayerRecStop half = .actLayerRecStop x := ⟨⟨0, 1, rfl, by decide⟩, half, rfl⟩

theorem witness_PauseButtonTogglesPause :
    (∃ ch v, Instr.ccLayerRecPause 0 1 = .ccLayerRecPause ch v ∧ v ≠ 0) ∧
    (sample.layer.get sample.selLayer).recorder.armed = false ∧
    (({ disarming with selLayer := 2 } : State).layer.get 2).recorder.armed = true := ⟨⟨0, 1, rfl, by decide⟩, rfl, rfl⟩

theorem witness_RecordButtonTogglesRequest :
    (∃ ch v, Instr.ccLayerRecRecord 0 127 = .ccLayerRecRecord ch v ∧ v ≠ 0) ∧
    ∃ x, Instr.actLayerRecRecord half = .actLayerRecRecord x := ⟨⟨0, 127, rfl, by decide⟩, half, rfl⟩

theorem witness_OscSelectSelectsBank :
    (∃ ch idx v, Instr.ccOscSelect 0 3 1 = .ccOscSelect ch idx v ∧ v ≠ 0 ∧ (3 : Fin 4) = idx.toFin) ∧
    ∃ x, Instr.actOscSelect 0 half = .actOscSelect ((0 : Fin 4).val : Int) x :=
  ⟨⟨0, 3, 1, rfl, by decide, rfl⟩, half, rfl⟩

/-- The two clauses of a target: the selected Bank, and a carried index at each end. -/
theorem witness_Targets (L : Layer) : Targets L (-1) L.selBank ∧ Targets L 0 0 ∧ Targets L 3 3 :=
  ⟨Or.inl ⟨rfl, rfl⟩, Or.inr rfl, Or.inr rfl⟩

theorem witness_OscMuteTogglesMute :
    (∃ ch idx v, Instr.ccOscMute 0 3 1 = .ccOscMute ch idx v ∧ v ≠ 0 ∧ (3 : Fin 4) = idx.toFin) ∧
    ∃ p x, Instr.actOscMute (-1) half = .actOscMute p x ∧ Targets (sample.layer.get sample.selLayer) p 0 :=
  ⟨⟨0, 3, 1, rfl, by decide, rfl⟩, -1, half, rfl, Or.inl ⟨rfl, rfl⟩⟩

theorem witness_OscAmpSetsBankAmplitude :
    (∃ ch idx v, Instr.ccOscAmp 0 3 0 = .ccOscAmp ch idx v ∧ (3 : Fin 4) = idx.toFin ∧ normalized Config.chip 0 = normalized Config.chip v) ∧
    ∃ p, Instr.actOscAmp 3 half = .actOscAmp p half ∧ Targets (sample.layer.get sample.selLayer) p 3 :=
  ⟨⟨0, 3, 0, rfl, rfl, rfl⟩, 3, rfl, Or.inr rfl⟩

theorem witness_OscTypeAdvancesWaveform :
    (∃ ch v, Instr.ccOscType 0 1 = .ccOscType ch v ∧ v ≠ 0) ∧ ∃ x, Instr.actOscType (-1) half = .actOscType (-1) x :=
  ⟨⟨0, 1, rfl, by decide⟩, half, rfl⟩

theorem witness_OscOctaveMovesOctave :
    (∃ ch v, Instr.ccOctaveDown 0 1 = .ccOctaveDown ch v ∧ v ≠ 0 ∧ (-1 : Int) = -1) ∧
    (∃ ch v, Instr.ccOctaveUp 0 1 = .ccOctaveUp ch v ∧ v ≠ 0 ∧ (1 : Int) = 1) ∧
    (∃ x, Instr.actOscOctave (-1) Num64.negOne = .actOscOctave (-1) x ∧ Num64.isInteger x = true ∧
      (-1 : Int) = Num64.trunc x) ∧
    Config.chip.octFits
      (((sample.layer.get sample.selLayer).bank.get (sample.layer.get sample.selLayer).selBank).params.octave + -1) =
        true :=
  ⟨⟨0, 1, rfl, by decide, rfl⟩, ⟨0, 1, rfl, by decide, rfl⟩, ⟨Num64.negOne, rfl, by decide, by decide⟩, rfl⟩

theorem witness_OscPitchReplacesSteps :
    (∃ ch l m, Instr.bend 0 0 127 = .bend ch l m ∧ (0 : Fin 4) = (sample.layer.get sample.selLayer).selBank ∧
      bendValue Config.chip 127 = bendValue Config.chip m) ∧
    ∃ p, Instr.actOscPitch 3 half = .actOscPitch p half ∧ Targets (sample.layer.get sample.selLayer) p 3 :=
  ⟨⟨0, 0, 127, rfl, rfl, rfl⟩, 3, rfl, Or.inr rfl⟩

theorem witness_ModSelectSelectsTarget :
    (∃ ch v, v ≠ 0 ∧ Instr.ccModFilter 0 1 = .ccModFilter ch v ∧ ModTarget.filter = .filter) ∧
    ∃ x, Instr.actModSelect 2 half = .actModSelect 2 x ∧ ModTarget.filter = .filter :=
  ⟨⟨0, 1, by decide, rfl, rfl⟩, half, rfl, rfl⟩

theorem witness_EnvelopeWritesOneField :
    (∃ ch idx v, Instr.ccEnvelope 0 2 0 = .ccEnvelope ch idx v ∧ (2 : Fin 4) = idx.toFin ∧ normalized Config.chip 0 = normalized Config.chip v) ∧
    Instr.actEnvelope 3 half = .actEnvelope ((3 : Fin 4).val : Int) half := ⟨⟨0, 2, 0, rfl, rfl, rfl⟩, rfl⟩

theorem witness_LfoWritesOneField :
    (∃ ch v, Instr.ccLfoSpeed 0 127 = .ccLfoSpeed ch v ∧ true = true ∧
      Num64.mul (normalized Config.chip 127) Config.chip.lfoSpeedMax = Num64.mul (normalized Config.chip v) Config.chip.lfoSpeedMax) ∧
    (∃ ch v, Instr.ccLfoAmp 0 0 = .ccLfoAmp ch v ∧ false = false ∧ normalized Config.chip 0 = normalized Config.chip v) ∧
    Instr.actLfo 0 half = .actLfo 0 half ∧ Instr.actLfo 1 half = .actLfo 1 half :=
  ⟨⟨0, 127, rfl, rfl, rfl⟩, ⟨0, 0, rfl, rfl, rfl⟩, rfl, rfl⟩

/-- The product of 0 and any MAX_CUTOFF is no NaN; that of a NaN is one. -/
theorem witness_FilterCutoffIsClamped :
    (∃ ch v, Instr.ccFilterCutoff 0 127 = .ccFilterCutoff ch v ∧
      (0 : Fin 4) = (sample.layer.get sample.selLayer).selBank ∧ Num64.powE (normalized Config.chip 127) = Num64.powE (normalized Config.chip v)) ∧
    (∃ p, Instr.actFilterCutoff 3 Num64.nan = .actFilterCutoff p Num64.nan ∧
      Targets (sample.layer.get sample.selLayer) p 3) ∧
    Num64.isNaN (Num64.mul Num64.zero bench.maxCutoff) = false ∧
    Num64.isNaN (Num64.mul Num64.nan Config.chip.maxCutoff) = true :=
  ⟨⟨0, 127, rfl, rfl, rfl⟩, ⟨3, rfl, Or.inr rfl⟩, by decide +kernel, rfl⟩

theorem witness_ControllerScaleIncreases : (0 : BitVec 7).toNat < (127 : BitVec 7).toNat := by decide

theorem witness_RecordingTickCounts :
    looped.armed = false ∧ ({ looped with armed := true } : Recorder).armed = true ∧ bench.tsFits (2 + 1) = true ∧
    bench.tsFits (2 ^ 32 - 1) = true := by decide +kernel

theorem witness_DisarmTickFreezesLoop :
    ({ looped with armed := true } : Recorder).armed = true ∧
    ∃ p, tick bench false { looped with armed := true, paused := false } = .ok p := ⟨rfl, _, rfl⟩

/-- The clauses of a playback tick: paused; an event at the next timestamp; the restart at the loop's length; a tick
within the loop; an empty loop. -/
theorem witness_PlaybackTickReplaysLoop :
    looped.armed = false ∧ looped.paused = true ∧
    KMap.get ({ looped with timestamp := 0 } : Recorder).events (0 + 1) = some noteA ∧ looped.events ≠ [] ∧
    KMap.get looped.events (4 + 1) = none ∧ looped.loopLength ≤ 4 + 1 ∧ KMap.get looped.events (3 + 1) = none ∧
    3 + 1 < looped.loopLength ∧ ({ looped with events := [] } : Recorder).events = [] := by decide +kernel

theorem witness_PlayingTimestampStaysInLoop :
    looped.armed = false ∧ ({ looped with paused := false } : Recorder).paused = false ∧ looped.events ≠ [] ∧
    (∀ n a, KMap.get looped.events n = some a → n ≤ looped.loopLength) ∧ looped.timestamp ≤ looped.loopLength ∧
    ∃ p, tick bench false { looped with paused := false } = .ok p := by
  refine ⟨rfl, rfl, by decide, ?_, by decide, _, rfl⟩
  intro n a h
  have := Laws.kmap_get_mem _ _ _ h
  simp only [looped, List.mem_singleton, Prod.mk.injEq] at this
  simp [looped, this.1]

theorem witness_RecordedLoopReplays :
    looped.armed = false ∧ 1 ≤ 9 ∧ 2 ≤ bench.maxRecording ∧ bench.tsFits (0 + 1) = true ∧ bench.tsFits (9 + 2) = true := by
  decide +kernel

theorem witness_BufferCompletes :
    StateInv Config.chip sample ∧ ∀ l : Fin 4, Config.chip.tsFits ((sample.layer.get l).recorder.timestamp + 1) = true :=
  ⟨sample_inv, fun l => by
    match l with
    | 0 => rfl
    | 1 => rfl
    | 2 => rfl
    | 3 => rfl⟩

/-- A tick that replays an ADD_NOTE, one that replays a REMOVE_NOTE, and one that replays nothing. -/
theorem witness_BufferStepsEveryLayer :
    (StateInv Config.chip (replaying .addNote) ∧ ∃ t, exec .buf (replaying .addNote) = .next t) ∧
    (StateInv Config.chip (replaying .removeNote) ∧ ∃ t, exec .buf (replaying .removeNote) = .next t) ∧
    (StateInv Config.chip sample ∧ ∃ t, exec .buf sample = .next t) :=
  ⟨⟨replaying_inv _ rfl, _, rfl⟩, ⟨replaying_inv _ rfl, _, rfl⟩, sample_inv, _, rfl⟩

/-- The clauses of a slot: empty; done; silent; advanced. -/
theorem witness_BankBufferAdvancesVoices :
    heldBank.slots.get 1 = none ∧
    (∃ v, (bankMix bench fullBank).1.slots.get 24 = some v ∧ v.done = true) ∧
    (∃ v, fullBank.slots.get 24 = some v ∧ v.done = false) ∧
    Num64.isZero fullBank.params.envAmp.sustain = false ∧
    Num64.isZero (setEnvelope bench 2 Num64.zero fullBank.params).envAmp.sustain = true :=
  ⟨by decide +kernel, ⟨{ note := 0, phase := 1, releasing := true, done := true }, by decide +kernel⟩,
    ⟨{ note := 0, phase := 0, releasing := true, done := false }, by decide +kernel⟩, by decide +kernel, by decide +kernel⟩

/-- The clauses of the mix: no voice; a sustain of zero; voices and a sustain; all muted; one not muted. -/
theorem witness_MixIsWeighted :
    voiceCount (bankPrune (Bank.initial bench)) = 0 ∧
    Num64.isZero (setEnvelope bench 2 Num64.zero heldBank.params).envAmp.sustain = true ∧
    voiceCount (bankPrune heldBank) ≠ 0 ∧ Num64.isZero heldBank.params.envAmp.sustain = false ∧
    (∀ b, ({ Layer.initial bench with mute := Quad.all true } : Layer).mute.get b = true) ∧
    ∃ b, (Layer.initial bench).mute.get b = false := by
  refine ⟨by decide +kernel, by decide +kernel, by decide +kernel, by decide +kernel, fun b => ?_, 0, rfl⟩
  simp

theorem witness_SamplesAreClamped : Num64.isNaN Num64.one = false ∧ Num64.isNaN Num64.nan = true := by decide

theorem witness_BufferAnswersBoundedSamples : ∃ t, exec .buf sample = .next t := sample_buf

theorem layer_weight_finite : Num64.isFinite (layerWeight Config.chip (Layer.initial Config.chip)) = true := by decide +kernel

theorem witness_BlockWithoutVoicesIsSilent :
    (∀ l b : Fin 4, NoVoices ((sample.layer.get l).bank.get b)) ∧
    (∀ l : Fin 4, (sample.layer.get l).recorder.events = []) ∧
    (∀ l : Fin 4, Num64.isFinite (layerWeight Config.chip (sample.layer.get l)) = true) ∧
    Num64.isFinite (masterWeight Config.chip sample) = true ∧ ∃ t, exec .buf sample = .next t := by
  refine ⟨?_, ?_, ?_, by decide +kernel, sample_buf⟩
  · intro l b s
    simp [sample, State.reset, State.initial, Layer.initial, Bank.initial]
  · intro l
    simp [sample, State.reset, State.initial, Layer.initial, Recorder.initial]
  · intro l
    simp only [sample, State.reset, State.initial, Laws.quad_get_all]
    exact layer_weight_finite

/-- Two blocks that agree in Layer 0 alone among their Layers. -/
theorem witness_LayersStepIndependently :
    sample.freeDraws = disarming.freeDraws ∧ sample.layer.get 0 = disarming.layer.get 0 ∧
    sample.layer.get 2 ≠ disarming.layer.get 2 ∧
    (∃ t, exec .buf sample = .next t) ∧ ∃ v, exec .buf disarming = .next v := by
  refine ⟨rfl, rfl, fun h => ?_, sample_buf, _, rfl⟩
  exact absurd (congrArg (fun L => L.recorder.armed) h) (by decide)

end Sys2Proof.Tests
end

/-! The block under any parameters (00_scope R6): what a DecodeTable decides, what an instruction does as the Router's
application of the action it derives, and the block's own step as the parameterised one at `Config.chip`. -/

namespace Sys2Proof.Proofs

open Sys2Proof Sys2Proof.Machine Sys2Proof.Safety Sys2Proof.Laws

/-! ## Decoding by a table -/

/-- Of disjoint rows, the two that match a word are one (30_encoding R94). -/
theorem disjointRows_unique (table : List DecodeRow) (q r : DecodeRow) (w : MsgWord) (hd : DisjointRows table)
    (hq : q ∈ table) (hr : r ∈ table) (hqw : q.matches w = true) (hrw : r.matches w = true) : q = r := by
  by_contra hne
  have hsymm : Std.Symm (fun r q : DecodeRow => ∀ w, ¬ (r.matches w = true ∧ q.matches w = true)) :=
    ⟨fun _ _ h w hw => h w hw.symm⟩
  exact hd.forall hq hr hne w ⟨hqw, hrw⟩

/-- Where the rows are disjoint, the row that matches decides, wherever it stands (30_encoding R94). -/
theorem decodeWith_of_matches (table : List DecodeRow) (r : DecodeRow) (w : MsgWord) (hd : DisjointRows table)
    (hr : r ∈ table) (hm : r.matches w = true) : decodeWith table w = r.build w := by
  unfold decodeWith
  cases hf : table.find? (fun q => q.matches w) with
  | none => exact absurd hm (List.find?_eq_none.mp hf r hr)
  | some q =>
    have hq : q.matches w = true := List.find?_some (p := (DecodeRow.matches · w)) hf
    rw [disjointRows_unique table q r w hd (List.mem_of_find?_eq_some hf) hr hq hm]

/-- A word that no row matches is NO_MATCH (40_decoder R136). -/
theorem decodeWith_of_no_match (table : List DecodeRow) (w : MsgWord) (h : ∀ r ∈ table, r.matches w = false) :
    decodeWith table w = .noMatch w := by
  have hf : table.find? (fun r => r.matches w) = none := List.find?_eq_none.mpr fun r hr => by simp [h r hr]
  rw [decodeWith, hf]

/-! ## Actions -/

/-- The Router dispatches a well-formed action (41_actions R150). -/
theorem applyAction_of_wellFormed (c : Config) (a : Action) (s : State) (h : wellFormedAction c a = true) :
    applyAction c a s = dispatchAction c a s := if_pos h

/-- A button row that derives an action derives its own (40_decoder, section 3). -/
theorem button_action {v : BitVec 7} {a b : Action} (h : (if v = 0 then none else some b) = some a) : b = a :=
  Option.some.inj (Option.ite_none_left_eq_some.mp h).2

/-- The selected Bank is a Bank param (41_actions R153, 30_encoding R101). -/
@[simp] theorem isBankParam_selected : isBankParam (-1) = true := rfl

/-- A controller index is a Bank param (30_encoding R97, R101). -/
@[simp] theorem isBankParam_controllerIndex (idx : BitVec 2) : isBankParam (controllerIndex idx) = true := by
  simp [isBankParam]

/-- The param of a note on fits the bus: a 7-bit key less a 7-bit key (60_exceptions R261). -/
theorem paramFits_relativeNote (c : Config) (k : BitVec 7) (h0 : 0 ≤ c.a4) (h1 : c.a4 ≤ 127) :
    c.paramFits (relativeNote c k) = true := by
  have hk := k.isLt
  exact paramFits_small c _ (by unfold relativeNote; omega)

/-- The param of a note off fits the bus: a 7-bit key. -/
theorem paramFits_key (c : Config) (k : BitVec 7) : c.paramFits (k.toNat : Int) = true := by
  have hk := k.isLt
  exact paramFits_small c _ (by omega)

/-- A message row derives only well-formed actions, where MIDI_TO_A4 is a 7-bit key (30_encoding R101). -/
theorem wellFormedAction_of_message (c : Config) (i : Instr) (a : Action) (h0 : 0 ≤ c.a4) (h1 : c.a4 ≤ 127)
    (hm : isMessage i = true) (ha : busAction c i = some a) : wellFormedAction c a = true := by
  cases i with
  | noteOn _ k _ =>
    obtain rfl := Option.some.inj ha
    exact paramFits_relativeNote c k h0 h1
  | noteOff _ k _ =>
    obtain rfl := Option.some.inj ha
    exact paramFits_key c k
  | ccOctaveDown =>
    obtain rfl := button_action ha
    exact c.num.minus_one_integer
  | ccOctaveUp =>
    obtain rfl := button_action ha
    exact c.num.one_integer
  | bend | ccMasterVol | ccLayerAmp | ccOscAmp | ccEnvelope | ccLfoSpeed | ccLfoAmp | ccFilterCutoff =>
    obtain rfl := Option.some.inj ha
    simp [wellFormedAction]
  | ccLayerSelect | ccLayerRecStop | ccLayerRecPause | ccLayerRecRecord | ccPower | ccOscSelect | ccOscMute | ccOscType
  | ccModAmp | ccModPitch | ccModFilter =>
    obtain rfl := button_action ha
    simp [wellFormedAction, modTargetOf]
  | noteOnZero | bendCentre | noMatch => cases ha
  | _ => cases hm

/-! ## Instructions -/

/-- An instruction other than BUF applies the action it derives (40_decoder R110, 41_actions R150). -/
theorem execWith_of_ne_buf (c : Config) (i : Instr) (s : State) (hb : i ≠ .buf) :
    execWith c i s = (match busAction c i with | none => .next s | some a => applyAction c a s) := if_neg hb

/-- What the block does with an instruction is what any block does with it, at the block's own parameters (00_scope R6). -/
theorem exec_eq_execWith (i : Instr) (s : State) : exec i s = execWith Config.chip i s := by
  by_cases hb : i = .buf
  · subst hb
    rfl
  rw [execWith_of_ne_buf _ _ _ hb]
  cases hm : isMessage i with
  | true =>
    rw [exec_message i s hm]
    cases ha : busAction Config.chip i with
    | none => rfl
    | some a =>
      have hwf := wellFormedAction_of_message _ i a chip_a4.1 chip_a4.2 hm ha
      exact (applyAction_of_wellFormed _ a s hwf).symm
  | false =>
    obtain ⟨a, ha, he⟩ := exec_action i s hm hb
    rw [he, ha]

/-! ## Steps -/

/-- The block's step is the step under any parameters, at its own (00_scope R6, 70_reset R293). -/
theorem step_eq_stepWith (s : State) : step s = stepWith Config.chip s := by
  have hexec : exec = execWith Config.chip := funext₂ exec_eq_execWith
  unfold step
  rw [hexec]
  rfl

/-- A step on a message carries out what the DecodeTable reads from it (20_memory R70, 30_encoding R95). -/
theorem stepWith_midi (c : Config) (s : State) (b0 b1 b2 : Byte) (rest : List Txn) (hr : s.refusalMark = none)
    (hf : s.faultRecord = none) (hs : s.stream = .midi b0 b1 b2 :: rest) :
    stepWith c s = execWith c (decodeWith c.decodeTable (wordOf b0 b1 b2)) (consume rest s) := by
  simp only [stepWith, (stoppedBy_none s).mpr ⟨hr, hf⟩, hs, decodeTxnWith]

/-- Under an admissible table, an instruction that a row reads has its action dispatched: it is no BUF, and its action is
well formed (30_encoding R95). -/
theorem execWith_build (c : Config) (r : DecodeRow) (w : MsgWord) (s : State) (ht : AdmissibleTable c)
    (hr : r ∈ c.decodeTable) :
    execWith c (r.build w) s =
      (match busAction c (r.build w) with | none => .next s | some a => dispatchAction c a s) := by
  rw [execWith_of_ne_buf _ _ _ (ht.noBuf r hr w)]
  cases ha : busAction c (r.build w) with
  | none => rfl
  | some a => exact applyAction_of_wellFormed c a s (ht.wellFormed r hr w a ha)

/-- Settles O60: the step goes through the decoded instruction, and under any parameters that is the row that matches, or
NO_MATCH. -/
theorem stepTakesParameters : Obligations.StepTakesParameters := by
  refine ⟨step_eq_stepWith, fun c s b0 b1 b2 rest hr hf hs => ?_⟩
  rw [stepWith_midi c s b0 b1 b2 rest hr hf hs]
  constructor
  · intro r ht hmem hm
    rw [decodeWith_of_matches _ r _ ht.disjoint hmem hm]
    exact execWith_build c r _ _ ht hmem
  · intro hno
    rw [decodeWith_of_no_match _ _ hno]
    rfl

end Sys2Proof.Proofs

/-! The registers of the block (10_state): what each Layer operation and each instruction that is answered can write, and
which action writes each register of the Synth, of a Layer and of a Recorder; and the voice counts of a Bank. -/

namespace Sys2Proof.Proofs

open Sys2Proof Sys2Proof.Machine Sys2Proof.Safety Sys2Proof.Laws

/-! ## The voices of a Bank -/

/-- A map in canonical form holds each key once (20_memory R76). -/
theorem kmap_keys_nodup {κ β : Type} [LinearOrder κ] (m : List (κ × β)) (h : KMap.wf m = true) :
    (m.map Prod.fst).Nodup := by
  induction m with
  | nil => exact List.nodup_nil
  | cons p rest ih =>
    refine List.nodup_cons.mpr ⟨fun hmem => ?_, ih (kmap_wf_tail p rest h)⟩
    obtain ⟨q, hq, heq⟩ := List.mem_map.mp hmem
    exact absurd heq (kmap_wf_head_lt p rest h q hq).ne'

/-- The key of an entry is read. -/
theorem kmap_get_of_mem_keys {κ β : Type} [LinearOrder κ] (m : List (κ × β)) (k : κ) (h : k ∈ m.map Prod.fst) :
    ∃ v, KMap.get m k = some v := by
  induction m with
  | nil => cases h
  | cons p rest ih =>
    by_cases hp : p.1 = k
    · exact ⟨p.2, if_pos hp⟩
    · obtain ⟨v, hv⟩ := ih ((List.mem_cons.mp h).resolve_left (Ne.symm hp))
      exact ⟨v, (if_neg hp).trans hv⟩

/-- The voice of an occupied slot is one of the Bank's voices (10_state R45, R48). -/
theorem mem_voicesOf (sl : Vector (Option Voice) 25) (s : Fin 25) (v : Voice) (h : sl.get s = some v) :
    v ∈ voicesOf sl := by
  refine List.mem_filterMap.mpr ⟨some v, ?_, rfl⟩
  rw [← h]
  exact List.getElem_mem _

/-- Every key of the note map is the key of one of the Bank's voices (10_state R47, 41_actions R180). -/
theorem noteMap_keys_subset (c : Config) (B : Bank) (h : BankInv c B) :
    B.noteMap.map Prod.fst ⊆ (voicesOf B.slots).map (fun v => v.note + c.a4) := by
  intro k hk
  obtain ⟨s, hs⟩ := kmap_get_of_mem_keys _ _ hk
  obtain ⟨v, hv, _, hkey⟩ := h.keyNamesLive k s hs
  exact List.mem_map.mpr ⟨v, mem_voicesOf _ s v hv, hkey⟩

/-- Settles O32: the keys of the note map are distinct, and each is the key of a voice. -/
theorem voiceCountsAreBounded : Obligations.VoiceCountsAreBounded := by
  intro c B h
  refine ⟨?_, voicesOf_length_le _⟩
  have hle := ((kmap_keys_nodup _ h.mapForm).subperm (noteMap_keys_subset c B h)).length_le
  simpa [liveCount, voiceCount] using hle

/-! ## Instructions -/

/-- Settles O17: what the block does with an instruction is what `execWith` does with it. -/
theorem instructionAppliesItsAction : Obligations.InstructionAppliesItsAction := fun i s hb =>
  (exec_eq_execWith i s).trans (execWith_of_ne_buf _ i s hb)

/-- A buffer transaction that is answered writes the Layers and the answer only, each Layer by its tick and its mix
(43_mixer R239, R240). -/
theorem execBuf_layers (s t : State) (h : exec .buf s = .next t) :
    ∃ q out, t = { s with layer := q, audioOut := out } ∧
      ∀ l, ∃ M, layerTick Config.chip s.freeDraws (s.layer.get l) = .ok M ∧ q.get l = (layerMix Config.chip M).1 := by
  obtain ⟨q, x, hq, rfl⟩ := execBuf_next s t h
  obtain ⟨y, hy, _⟩ := layersNextBuffer_ok _ _ _ _ _ hq
  refine ⟨q, _, rfl, fun l => ?_⟩
  obtain ⟨M, htick, hmix⟩ := (layerNextBuffer_ok _ _ _ _).mp (hy l)
  exact ⟨M, htick, (congrArg Prod.fst hmix).symm⟩

/-- Everything an instruction that is answered can have done: a buffer transaction; nothing; a write of one of the Synth's
registers by its action; or an action's dispatch in the Layer that processes it (41_actions R150, 43_mixer R240). -/
theorem exec_next_cases (i : Instr) (s t : State) (h : exec i s = .next t) :
    i = .buf ∨ (busAction Config.chip i = none ∧ t = s) ∨
    ∃ a, busAction Config.chip i = some a ∧
      ((a.code = .masterVol ∧ t = { s with masterAmp := a.value }) ∨
       (a.code = .layerSelect ∧ ∃ l, index4 a.param = some l ∧ t = { s with selLayer := l }) ∨
       (a.code = .power ∧ t = setPowerOff s) ∨
       (∃ l L, processedBy s a = some l ∧ layerApply Config.chip s.freeDraws a true (s.layer.get l) = .ok L ∧
         t = s.setLayer l L)) := by
  by_cases hb : i = .buf
  · exact Or.inl hb
  · rcases exec_next i s t hb h with hnone | ⟨a, ha, hd⟩
    · exact Or.inr (Or.inl hnone)
    · exact Or.inr (Or.inr ⟨a, ha, dispatchAction_next _ a s t hd⟩)

/-- The Layer that processes an action is the one LAYER_AMP names, or the selected one; and POWER has none (41_actions
R150). -/
theorem processedBy_some (s : State) (a : Action) (l : Fin 4) (h : processedBy s a = some l) :
    a.code ≠ .power ∧ (a.code = .layerAmp → a.param = (l.val : Int)) ∧ (a.code ≠ .layerAmp → l = s.selLayer) := by
  unfold processedBy at h
  split at h
  case h_1 | h_2 | h_3 => cases h
  case h_4 hc =>
    exact ⟨by simp [hc], fun _ => (index4_some _ _).mp h, absurd hc⟩
  case h_5 hpow hamp =>
    exact ⟨hpow, fun hc => absurd hc hamp, fun _ => (Option.some.inj h).symm⟩

/-! ## The Synth's registers -/

/-- Settles O12: POWER alone writes the power-off request, and writes 1. -/
theorem powerOffIsNeverCleared : Obligations.PowerOffIsNeverCleared := by
  refine ⟨fun i s t h => ?_, fun _ => rfl, rfl⟩
  rcases exec_next_cases i s t h with rfl | ⟨hnone, rfl⟩ | ⟨a, ha, hcase⟩
  · obtain ⟨q, out, rfl, _⟩ := execBuf_layers s t h
    simp [busAction]
  · simp [hnone]
  · rcases hcase with ⟨hc, rfl⟩ | ⟨hc, l, _, rfl⟩ | ⟨hc, rfl⟩ | ⟨l, L, hl, _, rfl⟩
    · simp [ha, hc]
    · simp [ha, hc]
    · simp [ha, hc]
    · simp [ha, (processedBy_some s a l hl).1]

/-- Settles O13: of everything an instruction can do, only the dispatch of LAYER_SELECT and of MASTER_VOL writes these. -/
theorem synthRegistersWrittenOnlyByTheirActions : Obligations.SynthRegistersWrittenOnlyByTheirActions := by
  intro i s t h
  rcases exec_next_cases i s t h with rfl | ⟨_, rfl⟩ | ⟨a, ha, hcase⟩
  · obtain ⟨q, out, rfl, _⟩ := execBuf_layers s t h
    exact ⟨absurd rfl, absurd rfl⟩
  · exact ⟨absurd rfl, absurd rfl⟩
  · rcases hcase with ⟨hc, rfl⟩ | ⟨hc, l, hl, rfl⟩ | ⟨_, rfl⟩ | ⟨l, L, _, _, rfl⟩
    · exact ⟨absurd rfl, fun _ => ⟨a, ha, hc, rfl⟩⟩
    · exact ⟨fun _ => ⟨a, ha, hc, (index4_some _ _).mp hl⟩, absurd rfl⟩
    · exact ⟨absurd rfl, absurd rfl⟩
    · exact ⟨absurd rfl, absurd rfl⟩

/-! ## A Layer's dispatch -/

theorem onTarget_banks (p : Int) (f : Params → Params) (L : Layer) : ∃ q, onTarget p f L = { L with bank := q } := by
  unfold onTarget
  split <;> exact ⟨_, rfl⟩

theorem layerModSelect_banks (p : Int) (L : Layer) : ∃ q, layerModSelect p L = { L with bank := q } := by
  unfold layerModSelect
  split <;> exact ⟨_, rfl⟩

theorem layerEnvelope_banks (c : Config) (p : Int) (x : Num64) (L : Layer) :
    ∃ q, layerEnvelope c p x L = { L with bank := q } := by
  unfold layerEnvelope
  split <;> exact ⟨_, rfl⟩

theorem layerOctave_banks (c : Config) (x : Num64) (L M : Layer) (h : layerOctave c x L = .ok M) :
    ∃ q, M = { L with bank := q } := by
  unfold layerOctave at h
  dsimp only at h
  split at h
  · cases h
    exact ⟨_, rfl⟩
  · cases h

/-- Everything a Layer's dispatch that is answered can have done outside the Banks, whatever the action (41_actions R151 to
R174): beside the press counter, a note action is captured, four actions write a register of the Layer or its Recorder,
and every other reaches the Banks at most. -/
theorem layerApply_cases (c : Config) (d : Nat) (a : Action) (live : Bool) (L M : Layer)
    (h : layerApply c d a live L = .ok M) :
    (∃ q, M = { clearPresses a L with bank := q }) ∨
    (isNoteAction a = true ∧ ∃ q, M = capture c a live { clearPresses a L with bank := q }) ∨
    (a.code = .layerAmp ∧ M = { clearPresses a L with layerAmp := a.value }) ∨
    (a.code = .layerRec ∧ M = layerRec c a.param (clearPresses a L)) ∨
    (a.code = .oscSelect ∧ M = layerOscSelect a.param (clearPresses a L)) ∨
    (a.code = .oscMute ∧ M = layerMute a.param (clearPresses a L)) := by
  unfold layerApply at h
  cases hc : a.code <;> simp only [hc] at h
  case oscOctave => exact Or.inl (layerOctave_banks c _ _ _ h)
  all_goals obtain rfl := Except.ok.inj h
  case addNote | removeNote =>
    exact Or.inr (Or.inl ⟨by simp [isNoteAction, hc], _, rfl⟩)
  case layerAmp | layerRec | oscSelect | oscMute => simp
  case oscAmp | oscPitch | filterCutoff => exact Or.inl (onTarget_banks _ _ _)
  case modSelect => exact Or.inl (layerModSelect_banks _ _)
  case envelope => exact Or.inl (layerEnvelope_banks c _ _ _)
  case oscType | lfo | masterVol | layerSelect | power | unison | reserved => exact Or.inl ⟨_, rfl⟩

/-- What a Layer's dispatch of an action leaves: each register but the one its own action writes, and always the loop's
length (10_state R25 to R28, R31). -/
structure KeepsOtherRegisters (a : Action) (L M : Layer) : Prop where
  mute : a.code ≠ .oscMute → M.mute = L.mute
  layerAmp : a.code ≠ .layerAmp → M.layerAmp = L.layerAmp
  selBank : a.code ≠ .oscSelect → M.selBank = L.selBank
  recording : ¬ (a.code = .layerRec ∧ (a.param = 0 ∨ a.param = 2)) → M.recording = L.recording
  loopLength : M.recorder.loopLength = L.recorder.loopLength

/-- A write of the Banks alone, after the press counter, keeps every register. -/
theorem keepsOtherRegisters_banks (a : Action) (L : Layer) (q : Quad Bank) :
    KeepsOtherRegisters a L { clearPresses a L with bank := q } := by
  constructor <;> simp

/-- The capture keeps the registers and the loop's length (41_actions R157, 42_recorder R208). -/
theorem keepsOtherRegisters_capture (c : Config) (a : Action) (live : Bool) (L M : Layer)
    (h : KeepsOtherRegisters a L M) : KeepsOtherRegisters a L (capture c a live M) := by
  rw [capture_eq]
  refine ⟨h.mute, h.layerAmp, h.selBank, h.recording, ?_⟩
  dsimp only
  split
  · exact (record_keeps c a _).1.trans h.loopLength
  · exact h.loopLength

/-- LAYER_REC writes the recording request on its buttons 0 and 2, and no button writes another register or the loop's
length (41_actions R158 to R160, 42_recorder R210, R211). -/
theorem keepsOtherRegisters_layerRec (c : Config) (a : Action) (L : Layer) (hc : a.code = .layerRec) :
    KeepsOtherRegisters a L (layerRec c a.param (clearPresses a L)) := by
  unfold layerRec
  by_cases h0 : a.param = 0
  · rw [if_pos h0]
    constructor <;> simp [hc, h0, stopRecorder]
  rw [if_neg h0]
  by_cases h1 : a.param = 1
  · rw [if_pos h1]
    constructor <;> simp [pauseToggle_eq]
  rw [if_neg h1]
  by_cases h2 : a.param = 2
  · rw [if_pos h2]
    constructor <;> simp [hc, h2]
  · rw [if_neg h2]
    exact keepsOtherRegisters_banks a L _

/-- OSC_SELECT writes the selected Bank alone (41_actions R165). -/
theorem keepsOtherRegisters_oscSelect (a : Action) (L : Layer) (hc : a.code = .oscSelect) :
    KeepsOtherRegisters a L (layerOscSelect a.param (clearPresses a L)) := by
  unfold layerOscSelect
  split
  · constructor <;> simp [hc]
  · exact keepsOtherRegisters_banks a L _

/-- OSC_MUTE writes a mute flag alone (41_actions R166). -/
theorem keepsOtherRegisters_mute (a : Action) (L : Layer) (hc : a.code = .oscMute) :
    KeepsOtherRegisters a L (layerMute a.param (clearPresses a L)) := by
  unfold layerMute
  split
  · constructor <;> simp [hc]
  · exact keepsOtherRegisters_banks a L _

/-- Whatever its action, a Layer's dispatch keeps the registers that are not its action's. -/
theorem layerApply_keepsOtherRegisters (c : Config) (d : Nat) (a : Action) (live : Bool) (L M : Layer)
    (h : layerApply c d a live L = .ok M) : KeepsOtherRegisters a L M := by
  rcases layerApply_cases c d a live L M h with ⟨q, rfl⟩ | ⟨_, q, rfl⟩ | ⟨hc, rfl⟩ | ⟨hc, rfl⟩ | ⟨hc, rfl⟩ | ⟨hc, rfl⟩
  · exact keepsOtherRegisters_banks a L q
  · exact keepsOtherRegisters_capture c a live L _ (keepsOtherRegisters_banks a L q)
  · constructor <;> simp [hc]
  · exact keepsOtherRegisters_layerRec c a L hc
  · exact keepsOtherRegisters_oscSelect a L hc
  · exact keepsOtherRegisters_mute a L hc

/-- A note action keeps all of a Layer's controls (41_actions R161, R162). -/
theorem sameControls_of_note (a : Action) (L M : Layer) (ha : isNoteAction a = true) (h : KeepsOtherRegisters a L M) :
    SameControls L M := by
  have hcode : a.code = .addNote ∨ a.code = .removeNote := by simpa [isNoteAction] using ha
  rcases hcode with hc | hc <;>
    exact ⟨h.mute (by simp [hc]), h.layerAmp (by simp [hc]), h.selBank (by simp [hc]), h.recording (by simp [hc])⟩

/-! ## A Layer's buffer step -/

/-- Everything a Layer's tick that is answered can have done, in any state (43_mixer R236): the Recorder's tick, and the
dispatch of what it replays. -/
theorem layerTick_replays (c : Config) (d : Nat) (L M : Layer) (h : layerTick c d L = .ok M) :
    ∃ R r, tick c L.recording L.recorder = .ok (R, r) ∧
      (M = { L with recorder := R } ∨ ∃ a, layerApply c d a false { L with recorder := R } = .ok M) := by
  unfold layerTick at h
  split at h
  · cases h
  · exact ⟨_, _, by assumption, Or.inl (Except.ok.inj h).symm⟩
  · refine ⟨_, _, by assumption, ?_⟩
    split at h
    · exact Or.inl (Except.ok.inj h).symm
    · exact Or.inr ⟨_, h⟩

/-- The loop's length after the edges: the counter where an armed Recorder is disarmed, else what it was (42_recorder R202). -/
theorem tickEdges_loopLength (arm : Bool) (R : Recorder) :
    (tickEdges arm R).loopLength = if arm = false ∧ R.armed = true then R.timestamp else R.loopLength := by
  cases arm <;> cases ha : R.armed <;>
    simp [tickEdges_arm, tickEdges_armed_armed, tickEdges_disarm, tickEdges_idle, ha]

/-- A Layer's tick writes the loop's length where its Recorder is armed and is not to be, and nowhere else (42_recorder R202,
R213). -/
theorem layerTick_loopLength (c : Config) (d : Nat) (L M : Layer) (h : layerTick c d L = .ok M) :
    M.recorder.loopLength =
      if L.recording = false ∧ L.recorder.armed = true then L.recorder.timestamp else L.recorder.loopLength := by
  obtain ⟨R, r, htick, hM⟩ := layerTick_replays c d L M h
  obtain ⟨_, _, hloop, _⟩ := tick_keeps _ _ _ _ _ htick
  rw [← tickEdges_loopLength, ← hloop]
  rcases hM with rfl | ⟨a, ha⟩
  · rfl
  · exact (layerApply_keepsOtherRegisters c d a false _ M ha).loopLength

/-- Under the invariant a Layer's tick keeps its controls: what it replays is a note action (43_mixer R236). -/
theorem layerTick_sameControls (c : Config) (d : Nat) (L M : Layer) (hL : LayerInv c L) (h : layerTick c d L = .ok M) :
    SameControls L M := by
  obtain ⟨R, r, _, ⟨_, rfl⟩ | ⟨a, _, hnote, _, ha⟩⟩ := layerTick_cases c d L M hL h
  · exact ⟨rfl, rfl, rfl, rfl⟩
  · obtain ⟨hmute, hamp, hbank, hrec⟩ := sameControls_of_note a _ M hnote (layerApply_keepsOtherRegisters c d a false _ M ha)
    exact ⟨hmute, hamp, hbank, hrec⟩

/-- A buffer transaction keeps the controls of every Layer (43_mixer R236 to R240). -/
theorem execBuf_sameControls (s t : State) (hs : StateInv Config.chip s) (h : exec .buf s = .next t) (l : Fin 4) :
    SameControls (s.layer.get l) (t.layer.get l) := by
  obtain ⟨q, out, rfl, hq⟩ := execBuf_layers s t h
  obtain ⟨M, htick, hmix⟩ := hq l
  obtain ⟨hmute, hamp, hbank, hrec⟩ := layerTick_sameControls _ _ _ M (hs l) htick
  dsimp only
  rw [hmix, layerMix_keeps]
  exact ⟨hmute, hamp, hbank, hrec⟩

/-- A buffer transaction writes a loop's length at the disarm of its Recorder only (42_recorder R202). -/
theorem execBuf_loopLength (s t : State) (h : exec .buf s = .next t) (l : Fin 4) :
    (t.layer.get l).recorder.loopLength =
      if (s.layer.get l).recording = false ∧ (s.layer.get l).recorder.armed = true
      then (s.layer.get l).recorder.timestamp else (s.layer.get l).recorder.loopLength := by
  obtain ⟨q, out, rfl, hq⟩ := execBuf_layers s t h
  obtain ⟨M, htick, hmix⟩ := hq l
  dsimp only
  rw [hmix, layerMix_keeps]
  exact layerTick_loopLength _ _ _ M htick

/-! ## The registers of a Layer -/

/-- Where an instruction other than BUF changes a Layer, its action was dispatched there (41_actions R150). -/
theorem exec_layer_cases (i : Instr) (s t : State) (hb : i ≠ .buf) (h : exec i s = .next t) (l : Fin 4) :
    t.layer.get l = s.layer.get l ∨
    ∃ a, busAction Config.chip i = some a ∧ processedBy s a = some l ∧
      KeepsOtherRegisters a (s.layer.get l) (t.layer.get l) := by
  rcases exec_next_cases i s t h with rfl | ⟨_, rfl⟩ | ⟨a, ha, hcase⟩
  · exact absurd rfl hb
  · exact Or.inl rfl
  · rcases hcase with ⟨_, rfl⟩ | ⟨_, _, _, rfl⟩ | ⟨_, rfl⟩ | ⟨k, L, hk, hL, rfl⟩
    · exact Or.inl rfl
    · exact Or.inl rfl
    · exact Or.inl rfl
    · by_cases hlk : l = k
      · subst hlk
        rw [setLayer_get]
        exact Or.inr ⟨a, ha, hk, layerApply_keepsOtherRegisters _ _ a true _ L hL⟩
      · exact Or.inl (setLayer_get_ne s k l L hlk)

/-- Settles O14: a buffer transaction keeps the controls, and a dispatched action those that are not its own. -/
theorem layerRegistersWrittenOnlyByTheirActions : Obligations.LayerRegistersWrittenOnlyByTheirActions := by
  intro i s t hs h l
  by_cases hb : i = .buf
  · subst hb
    obtain ⟨hmute, hamp, hbank, hrec⟩ := execBuf_sameControls s t hs h l
    exact ⟨absurd hmute, absurd hamp, absurd hbank, absurd hrec⟩
  · rcases exec_layer_cases i s t hb h l with hsame | ⟨a, ha, hl, hkeep⟩
    · rw [hsame]
      exact ⟨absurd rfl, absurd rfl, absurd rfl, absurd rfl⟩
    · obtain ⟨_, hnamed, hselected⟩ := processedBy_some s a l hl
      refine ⟨fun hne => ?_, fun hne => ?_, fun hne => ?_, fun hne => ?_⟩
      · have hc : a.code = .oscMute := not_imp_comm.mp hkeep.mute hne
        exact ⟨a, ha, hc, hselected (by simp [hc])⟩
      · have hc : a.code = .layerAmp := not_imp_comm.mp hkeep.layerAmp hne
        exact ⟨a, ha, hc, hnamed hc⟩
      · have hc : a.code = .oscSelect := not_imp_comm.mp hkeep.selBank hne
        exact ⟨a, ha, hc, hselected (by simp [hc])⟩
      · obtain ⟨hc, hp⟩ := not_imp_comm.mp hkeep.recording hne
        exact ⟨a, ha, hc, hp, hselected (by simp [hc])⟩

/-- Settles O15: no dispatch writes a loop's length, and a tick only at the disarm. -/
theorem loopLengthWrittenOnlyAtDisarm : Obligations.LoopLengthWrittenOnlyAtDisarm := by
  intro i s t h l hne
  by_cases hb : i = .buf
  · subst hb
    have hloop := execBuf_loopLength s t h l
    split at hloop
    · rename_i hdisarm
      exact ⟨rfl, hdisarm.1, hdisarm.2, hloop⟩
    · exact absurd hloop hne
  · rcases exec_layer_cases i s t hb h l with hsame | ⟨a, _, _, hkeep⟩
    · exact absurd (congrArg (fun L => L.recorder.loopLength) hsame) hne
    · exact absurd hkeep.loopLength hne

end Sys2Proof.Proofs

/-! One step on the first transaction of the stream (20_memory R70, R71). -/

namespace Sys2Proof.Proofs

open Sys2Proof Sys2Proof.Machine Sys2Proof.Laws

/-- A run that is not stopped carries out the instruction its first transaction decodes to, once that transaction has been
taken from the stream. -/
theorem step_of_decodeTxn_ok (s : State) (x : Txn) (rest : List Txn) (i : Instr) (hrun : stoppedBy s = none)
    (hs : s.stream = x :: rest) (hx : decodeTxn x = .ok i) : step s = exec i (consume rest s) := by
  simp only [step, hrun, hs, hx]

/-- Settles O7: a state with neither mark nor record is not stopped, and taking its transaction is `consume`. -/
theorem stepRunsDecodedInstruction : Obligations.StepRunsDecodedInstruction := by
  intro s x rest i hr hf hs hx
  have hrun : stoppedBy s = none := (stoppedBy_none s).mpr ⟨hr, hf⟩
  exact step_of_decodeTxn_ok s x rest i hrun hs hx

end Sys2Proof.Proofs

/-! The encodings (30_encoding): a message word as its fields, which words a row of the reference table matches, and that
encoding and decoding undo each other. -/

namespace Sys2Proof.Proofs

open Sys2Proof Sys2Proof.Machine Sys2Proof.Safety Sys2Proof.Laws

/-! ## The message word as its fields -/

/-- The status type, `W[23:20]` (30_encoding R91). -/
def fieldSt (w : MsgWord) : BitVec 4 := w.extractLsb' 20 4

theorem toNat_nibbles (st ch : BitVec 4) : (st ++ ch).toNat = st.toNat * 0x10 + ch.toNat := by
  rw [BitVec.toNat_append, ← Nat.shiftLeft_add_eq_or_of_lt ch.isLt, Nat.shiftLeft_eq]

theorem toNat_data (k : BitVec 7) : (0#1 ++ k).toNat = k.toNat := by
  rw [BitVec.toNat_append]
  simp

/-- The number of a message's word, by its fields (30_encoding R91). -/
theorem toNat_messageWord (st ch : BitVec 4) (k v : BitVec 7) :
    (messageWord st ch k v).toNat = st.toNat * 0x100000 + ch.toNat * 0x10000 + k.toNat * 0x100 + v.toNat := by
  have hk := k.isLt
  have hv := v.isLt
  rw [messageWord, wordOf, BitVec.toNat_append, BitVec.toNat_append]
  rw [← Nat.shiftLeft_add_eq_or_of_lt (BitVec.isLt _), ← Nat.shiftLeft_add_eq_or_of_lt (BitVec.isLt _),
    Nat.shiftLeft_eq, Nat.shiftLeft_eq, toNat_nibbles, toNat_data, toNat_data]
  omega

@[simp] theorem fieldSt_messageWord (st ch : BitVec 4) (k v : BitVec 7) : fieldSt (messageWord st ch k v) = st := by
  have hch := ch.isLt
  have hk := k.isLt
  have hv := v.isLt
  apply BitVec.eq_of_toNat_eq
  rw [fieldSt, BitVec.extractLsb'_toNat, toNat_messageWord, Nat.shiftRight_eq_div_pow]
  omega

/-- A word whose data bytes are below 0x80 is a message's word (30_encoding R91, R98). -/
theorem eq_messageWord (w : MsgWord) (h1 : w.toNat / 0x100 % 0x100 < 0x80) (h2 : w.toNat % 0x100 < 0x80) :
    w = messageWord (fieldSt w) (fieldCh w) (fieldK w) (fieldV w) := by
  apply BitVec.eq_of_toNat_eq
  have hw := w.isLt
  simp only [toNat_messageWord, fieldSt, fieldCh, fieldK, fieldV, BitVec.extractLsb'_toNat, Nat.shiftRight_eq_div_pow]
  omega

/-- A message's word is that of its fields alone. -/
theorem messageWord_inj (st ch st' ch' : BitVec 4) (k v k' v' : BitVec 7) :
    messageWord st ch k v = messageWord st' ch' k' v' ↔ st = st' ∧ ch = ch' ∧ k = k' ∧ v = v' := by
  refine ⟨fun h => ⟨?_, ?_, ?_, ?_⟩, ?_⟩
  · simpa using congrArg fieldSt h
  · simpa using congrArg fieldCh h
  · simpa using congrArg fieldK h
  · simpa using congrArg fieldV h
  · rintro ⟨rfl, rfl, rfl, rfl⟩
    rfl

/-- The list of 30_encoding R98 on a message's word, by its fields. -/
theorem recognized_messageWord (st ch : BitVec 4) (k v : BitVec 7) :
    recognized (messageWord st ch k v) = true ↔
      st = 0x8#4 ∨ st = 0x9#4 ∨ st = 0xE#4 ∨
        (st = 0xB#4 ∧ ∃ button, controllerRow k.toNat = some button ∧ (button = true → v ≠ 0)) := by
  have hch := ch.isLt
  have hk := k.isLt
  have hv := v.isLt
  have hb1 : (messageWord st ch k v).toNat / 0x100 % 0x100 = k.toNat := by rw [toNat_messageWord]; omega
  have hb2 : (messageWord st ch k v).toNat % 0x100 = v.toNat := by rw [toNat_messageWord]; omega
  have hst : (messageWord st ch k v).toNat / 0x100000 = st.toNat := by rw [toNat_messageWord]; omega
  unfold recognized
  dsimp only
  rw [hb1, hb2, hst]
  cases controllerRow k.toNat <;> simp [BitVec.toNat_eq, hk, hv, or_assoc, imp_iff_not_or]

/-! ## When a row of the reference table matches -/

/-- A row's mask covers the status, and bit 7 of both data bytes, which its pattern has clear, and leaves the channel
free (30_encoding R93, R94). -/
def RowShape (r : DecodeRow) : Prop :=
  r.mask = wordOf (0xF#4 ++ 0#4) (1#1 ++ fieldK r.mask) (1#1 ++ fieldV r.mask) ∧
  r.pattern = messageWord (fieldSt r.pattern) 0#4 (fieldK r.pattern) (fieldV r.pattern)

theorem rowShape_of_mem : ∀ r ∈ referenceTable, RowShape r := by
  unfold RowShape
  decide

/-- A row matches a message's word field by field (30_encoding R94). -/
theorem matches_messageWord_iff (r : DecodeRow) (hr : RowShape r) (st ch : BitVec 4) (k v : BitVec 7) :
    r.matches (messageWord st ch k v) = true ↔
      st = fieldSt r.pattern ∧ k &&& fieldK r.mask = fieldK r.pattern ∧ v &&& fieldV r.mask = fieldV r.pattern ∧
        r.cond.holds (0#1 ++ v) = true := by
  obtain ⟨hm, hp⟩ := hr
  have hs : st &&& 0xF#4 = st := BitVec.and_allOnes
  have hmask : messageWord st ch k v &&& r.mask = messageWord st 0#4 (k &&& fieldK r.mask) (v &&& fieldV r.mask) := by
    conv_lhs => rw [hm, messageWord_and, hs, BitVec.and_zero]
  have hb2 : wordB2 (messageWord st ch k v) = 0#1 ++ v := wordB2_wordOf _ _ _
  have hpat : messageWord st 0#4 (k &&& fieldK r.mask) (v &&& fieldV r.mask) = r.pattern ↔
      st = fieldSt r.pattern ∧ k &&& fieldK r.mask = fieldK r.pattern ∧ v &&& fieldV r.mask = fieldV r.pattern := by
    conv_lhs => rw [hp, messageWord_inj]
    simp
  rw [DecodeRow.matches, Bool.and_eq_true, beq_iff_eq, hmask, hb2, hpat, and_assoc, and_assoc]

/-- Bit 7 of the first data byte. -/
theorem getLsbD_15_wordOf (a : Byte) (d e : BitVec 1) (k v : BitVec 7) :
    (wordOf a (d ++ k) (e ++ v)).getLsbD 15 = d.getLsbD 0 :=
  (wordOf_getLsbD _ _ _ 15).trans (data_getLsbD d k 7)

/-- Bit 7 of the second data byte. -/
theorem getLsbD_7_wordOf (a : Byte) (d e : BitVec 1) (k v : BitVec 7) :
    (wordOf a (d ++ k) (e ++ v)).getLsbD 7 = e.getLsbD 0 :=
  (wordOf_getLsbD _ _ _ 7).trans (data_getLsbD e v 7)

/-- A word that a row matches is a message's word: both its data bytes are below 0x80 (30_encoding R98). -/
theorem eq_messageWord_of_matches (r : DecodeRow) (hr : RowShape r) (w : MsgWord) (h : r.matches w = true) :
    w = messageWord (fieldSt w) (fieldCh w) (fieldK w) (fieldV w) := by
  obtain ⟨hm, hp⟩ := hr
  rw [DecodeRow.matches, Bool.and_eq_true, beq_iff_eq] at h
  obtain ⟨hword, -⟩ := h
  rw [hm, hp, messageWord] at hword
  have h15 := congrArg (BitVec.getLsbD · 15) hword
  have h7 := congrArg (BitVec.getLsbD · 7) hword
  simp only [BitVec.getLsbD_and, getLsbD_15_wordOf, getLsbD_7_wordOf] at h15 h7
  replace h15 : w.getLsbD 15 = false := by simpa using h15
  replace h7 : w.getLsbD 7 = false := by simpa using h7
  rw [← BitVec.testBit_toNat, Nat.testBit_eq_decide_div_mod_eq, decide_eq_false_iff_not] at h15 h7
  exact eq_messageWord w (by omega) (by omega)

/-! ## The rows are disjoint -/

/-- Two conditions on `b2` that no byte meets both. -/
def condsExclude : Cond → Cond → Bool
  | .ne n, .eq m => n == m
  | .eq n, .ne m => n == m
  | _, _ => false

theorem not_holds_of_condsExclude (c d : Cond) (b : Byte) (h : condsExclude c d = true) :
    ¬ (c.holds b = true ∧ d.holds b = true) := by
  cases c <;> cases d <;> simp_all [condsExclude, Cond.holds]

/-- Two rows that no word matches both: their patterns differ where both masks look, or their conditions exclude each
other (40_decoder R139). -/
def rowsClash (r q : DecodeRow) : Bool :=
  r.pattern &&& q.mask != q.pattern &&& r.mask || condsExclude r.cond q.cond

theorem not_matches_of_rowsClash (r q : DecodeRow) (w : MsgWord) (h : rowsClash r q = true) :
    ¬ (r.matches w = true ∧ q.matches w = true) := by
  rintro ⟨hr, hq⟩
  rw [DecodeRow.matches, Bool.and_eq_true, beq_iff_eq] at hr hq
  obtain ⟨hrw, hrc⟩ := hr
  obtain ⟨hqw, hqc⟩ := hq
  rw [rowsClash, Bool.or_eq_true, bne_iff_ne] at h
  rcases h with hpat | hcond
  · refine hpat ?_
    rw [← hrw, ← hqw]
    ac_rfl
  · exact not_holds_of_condsExclude _ _ _ hcond ⟨hrc, hqc⟩

theorem rowsClash_referenceTable : referenceTable.Pairwise (fun r q => rowsClash r q = true) := by decide

/-- No two rows of the reference table match one word (30_encoding R94, 40_decoder R139). -/
theorem disjointRows_referenceTable : DisjointRows referenceTable :=
  rowsClash_referenceTable.imp fun h w => not_matches_of_rowsClash _ _ w h

/-! ## The list of 30_encoding R98 and the rows -/

theorem mem_referenceTable (r : DecodeRow) : r ∈ referenceTable ↔ r ∈ noteRows ∨ r ∈ layerRows ++ bankRows := by
  rw [referenceTable, List.append_assoc, List.mem_append]

/-- The status of a note or pitch-bend row (30_encoding R96). -/
theorem noteRow_status : ∀ r ∈ noteRows,
    fieldSt r.pattern = 0x8#4 ∨ fieldSt r.pattern = 0x9#4 ∨ fieldSt r.pattern = 0xE#4 := by decide

/-- Each of these statuses has a row for every value, whatever the first data byte (30_encoding R96, R98). -/
theorem exists_noteRow : ∀ st ∈ [0x8#4, 0x9#4, 0xE#4], ∀ v : BitVec 7, ∃ r ∈ noteRows,
    fieldSt r.pattern = st ∧ fieldK r.mask = 0#7 ∧ fieldK r.pattern = 0#7 ∧ v &&& fieldV r.mask = fieldV r.pattern ∧
      r.cond.holds (0#1 ++ v) = true := by decide

/-- Where the condition of a button row, of NOTE_ON or of BEND holds, the value is not the one it excludes. -/
theorem decide_ne_of_cond (n v : BitVec 7) (h : (Cond.ne (0#1 ++ n)).holds (0#1 ++ v) = true) : decide (v ≠ n) = true := by
  refine decide_eq_true ?_
  rintro rfl
  simp [Cond.holds] at h

/-- The condition of a control-change row: a button row takes no value 0 (30_encoding R97). -/
def controlCond (button : Bool) : Cond := if button then .ne 0 else .any

theorem controlCond_holds (button : Bool) (v : BitVec 7) :
    (controlCond button).holds (0#1 ++ v) = true ↔ (button = true → v ≠ 0) := by
  cases button
  · simp [controlCond, Cond.holds]
  · exact ⟨fun h _ => of_decide_eq_true (decide_ne_of_cond 0 v h), fun h => cond_ne_zero v (h rfl)⟩

/-- A control-change row has its controllers in the list, button rows as such (30_encoding R97, R98). -/
theorem controlRow_fields : ∀ r ∈ layerRows ++ bankRows,
    fieldSt r.pattern = 0xB#4 ∧ fieldV r.mask = 0#7 ∧ fieldV r.pattern = 0#7 ∧
      ∀ k : BitVec 7, k &&& fieldK r.mask = fieldK r.pattern →
        ∃ button, controllerRow k.toNat = some button ∧ r.cond = controlCond button := by decide

/-- A controller of the list has a row (30_encoding R97, R98). -/
theorem exists_controlRow : ∀ (k : BitVec 7) (button : Bool), controllerRow k.toNat = some button →
    ∃ r ∈ layerRows ++ bankRows, k &&& fieldK r.mask = fieldK r.pattern ∧ r.cond = controlCond button := by decide

/-- A message's word is in the list exactly where a row matches it. -/
theorem recognized_messageWord_iff_matches (st ch : BitVec 4) (k v : BitVec 7) :
    recognized (messageWord st ch k v) = true ↔ ∃ r ∈ referenceTable, r.matches (messageWord st ch k v) = true := by
  rw [recognized_messageWord]
  constructor
  · intro h
    have hnote : st ∈ [0x8#4, 0x9#4, 0xE#4] ∨
        (st = 0xB#4 ∧ ∃ button, controllerRow k.toNat = some button ∧ (button = true → v ≠ 0)) := by
      simpa [or_assoc] using h
    rcases hnote with hst | ⟨rfl, button, hbutton, hv⟩
    · obtain ⟨r, hr, hst, hmk, hpk, hrv, hc⟩ := exists_noteRow st hst v
      have hmem := (mem_referenceTable r).mpr (Or.inl hr)
      refine ⟨r, hmem, (matches_messageWord_iff r (rowShape_of_mem r hmem) _ _ _ _).mpr ⟨hst.symm, ?_, hrv, hc⟩⟩
      rw [hmk, hpk, BitVec.and_zero]
    · obtain ⟨r, hr, hrk, hc⟩ := exists_controlRow k button hbutton
      obtain ⟨hst, hmv, hpv, -⟩ := controlRow_fields r hr
      have hmem := (mem_referenceTable r).mpr (Or.inr hr)
      refine ⟨r, hmem, (matches_messageWord_iff r (rowShape_of_mem r hmem) _ _ _ _).mpr ⟨hst.symm, hrk, ?_, ?_⟩⟩
      · rw [hmv, hpv, BitVec.and_zero]
      · rw [hc]
        exact (controlCond_holds button v).mpr hv
  · rintro ⟨r, hmem, hm⟩
    obtain ⟨rfl, hrk, -, hc⟩ := (matches_messageWord_iff r (rowShape_of_mem r hmem) _ _ _ _).mp hm
    rcases (mem_referenceTable r).mp hmem with hr | hr
    · rcases noteRow_status r hr with h | h | h <;> simp [h]
    · obtain ⟨hst, -, -, hctl⟩ := controlRow_fields r hr
      obtain ⟨button, hbutton, hcond⟩ := hctl k hrk
      rw [hcond] at hc
      exact Or.inr (Or.inr (Or.inr ⟨hst, button, hbutton, (controlCond_holds button v).mp hc⟩))

/-- A word of the list of 30_encoding R98 is a message's word. -/
theorem eq_messageWord_of_recognized (w : MsgWord) (h : recognized w = true) :
    w = messageWord (fieldSt w) (fieldCh w) (fieldK w) (fieldV w) := by
  simp only [recognized, Bool.and_eq_true, decide_eq_true_eq] at h
  exact eq_messageWord w h.1.1 h.1.2

/-- The list of 30_encoding R98 is the words that a row matches. -/
theorem recognized_iff_matches (w : MsgWord) :
    recognized w = true ↔ ∃ r ∈ referenceTable, r.matches w = true := by
  refine ⟨fun h => ?_, fun h => ?_⟩
  · have hw := eq_messageWord_of_recognized w h
    rw [hw] at h ⊢
    exact (recognized_messageWord_iff_matches _ _ _ _).mp h
  · have ⟨r, hr, hm⟩ := h
    rw [eq_messageWord_of_matches r (rowShape_of_mem r hr) w hm] at h ⊢
    exact (recognized_messageWord_iff_matches _ _ _ _).mpr h

/-- A word outside the list is NO_MATCH (30_encoding R98, 40_decoder R136). -/
theorem decodeWord_of_not_recognized (w : MsgWord) (h : recognized w = false) : decodeWord w = .noMatch w :=
  decodeWith_of_no_match _ w fun r hr => Bool.eq_false_iff.mpr fun hm =>
    Bool.eq_false_iff.mp h ((recognized_iff_matches w).mpr ⟨r, hr, hm⟩)

/-- A word that a row of the reference table matches is read by that row (30_encoding R94). -/
theorem decodeWord_of_matches (r : DecodeRow) (w : MsgWord) (hr : r ∈ referenceTable) (hm : r.matches w = true) :
    decodeWord w = r.build w :=
  decodeWith_of_matches _ r w disjointRows_referenceTable hr hm

/-! ## What a row reads is encoded as the word it was read from -/

/-- A row reads from every word it matches a well-formed instruction, which is carried by that word. -/
def RowReencodes (r : DecodeRow) : Prop :=
  ∀ (ch : BitVec 4) (k v : BitVec 7), k &&& fieldK r.mask = fieldK r.pattern → v &&& fieldV r.mask = fieldV r.pattern →
    r.cond.holds (0#1 ++ v) = true →
      (r.build (messageWord (fieldSt r.pattern) ch k v)).wf = true ∧
      encode (r.build (messageWord (fieldSt r.pattern) ch k v)) = message (fieldSt r.pattern) ch k v

/-- A row that reads the channel and both data bytes. -/
theorem rowReencodes_of_read {r : DecodeRow} (read : BitVec 4 → BitVec 7 → BitVec 7 → Instr)
    (hwf : ∀ ch k v, r.cond.holds (0#1 ++ v) = true → (read ch k v).wf = true)
    (henc : ∀ ch k v, k &&& fieldK r.mask = fieldK r.pattern → v &&& fieldV r.mask = fieldV r.pattern →
      encode (read ch k v) = message (fieldSt r.pattern) ch k v)
    (hread : ∀ w, r.build w = read (fieldCh w) (fieldK w) (fieldV w) := by intro _; rfl) : RowReencodes r := by
  intro ch k v hk hv hc
  rw [hread, fieldCh_messageWord, fieldK_messageWord, fieldV_messageWord]
  exact ⟨hwf ch k v hc, henc ch k v hk hv⟩

/-- The row of one controller (30_encoding R97). -/
theorem rowReencodes_control {r : DecodeRow} (c : BitVec 7) (read : BitVec 4 → BitVec 7 → Instr)
    (hwf : ∀ ch v, r.cond.holds (0#1 ++ v) = true → (read ch v).wf = true)
    (hst : fieldSt r.pattern = 0xB#4 := by rfl) (hmask : fieldK r.mask = BitVec.allOnes 7 := by rfl)
    (hpat : fieldK r.pattern = c := by rfl)
    (hread : ∀ w, r.build w = read (fieldCh w) (fieldV w) := by intro _; rfl)
    (henc : ∀ ch v, encode (read ch v) = controlChange ch c v := by intro _ _; rfl) : RowReencodes r := by
  refine rowReencodes_of_read (fun ch _ v => read ch v) (fun ch _ v => hwf ch v) (fun ch k v hk _ => ?_) hread
  rw [hmask, hpat, BitVec.and_allOnes] at hk
  rw [henc, hst, hk, controlChange]

/-- A controller number with the five high bits of a group of four is one of the group. -/
theorem eq_group_append (k : BitVec 7) (g : BitVec 5) (h : k &&& 0x7C#7 = g ++ 0#2) :
    ∃ idx : BitVec 2, k = g ++ idx := by
  revert h
  revert k g
  decide

/-- The row of a group of four controllers (30_encoding R97). -/
theorem rowReencodes_group {r : DecodeRow} (g : BitVec 5) (read : BitVec 4 → BitVec 2 → BitVec 7 → Instr)
    (hwf : ∀ ch idx v, r.cond.holds (0#1 ++ v) = true → (read ch idx v).wf = true)
    (hst : fieldSt r.pattern = 0xB#4 := by rfl) (hmask : fieldK r.mask = 0x7C#7 := by rfl)
    (hpat : fieldK r.pattern = g ++ 0#2 := by rfl)
    (hread : ∀ w, r.build w = read (fieldCh w) (fieldIdx w) (fieldV w) := by intro _; rfl)
    (henc : ∀ ch idx v, encode (read ch idx v) = controlChange4 ch g idx v := by intro _ _ _; rfl) :
    RowReencodes r := by
  intro ch k v hk _ hc
  rw [hmask, hpat] at hk
  obtain ⟨idx, rfl⟩ := eq_group_append k g hk
  rw [hread, fieldCh_messageWord, fieldIdx_messageWord, fieldV_messageWord]
  exact ⟨hwf ch idx v hc, (henc ch idx v).trans (by rw [hst, controlChange4])⟩

/-- The note and pitch-bend rows (30_encoding R96). -/
theorem noteRows_reencode : ∀ r ∈ noteRows, RowReencodes r := by
  simp only [noteRows, List.forall_mem_cons, List.not_mem_nil, false_imp_iff, implies_true, and_true]
  refine ⟨?_, ?_, ?_, ?_, ?_⟩
  · exact rowReencodes_of_read .noteOn (fun _ _ => decide_ne_of_cond 0) fun _ _ _ _ _ => rfl
  · refine rowReencodes_of_read (fun ch k _ => .noteOnZero ch k) (fun _ _ _ _ => rfl) fun _ _ v _ hv => ?_
    obtain rfl : v = 0#7 := BitVec.and_allOnes.symm.trans hv
    rfl
  · exact rowReencodes_of_read .noteOff (fun _ _ _ _ => rfl) fun _ _ _ _ _ => rfl
  · refine rowReencodes_of_read (fun ch k _ => .bendCentre ch k) (fun _ _ _ _ => rfl) fun _ _ v _ hv => ?_
    obtain rfl : v = 64#7 := BitVec.and_allOnes.symm.trans hv
    rfl
  · exact rowReencodes_of_read .bend (fun _ _ => decide_ne_of_cond 64) fun _ _ _ _ _ => rfl

/-- The rows of the Synth and Layer controls (30_encoding R97). -/
theorem layerRows_reencode : ∀ r ∈ layerRows, RowReencodes r := by
  simp only [layerRows, List.forall_mem_cons, List.not_mem_nil, false_imp_iff, implies_true, and_true]
  refine ⟨?_, ?_, ?_, ?_, ?_, ?_, ?_, ?_, ?_, ?_⟩
  · exact rowReencodes_control 0x07#7 .ccMasterVol fun _ _ _ => rfl
  · exact rowReencodes_group 0x04#5 .ccLayerSelect fun _ _ => decide_ne_of_cond 0
  · exact rowReencodes_group 0x05#5 .ccLayerAmp fun _ _ _ _ => rfl
  · exact rowReencodes_control 0x18#7 .ccLayerRecStop fun _ => decide_ne_of_cond 0
  · exact rowReencodes_control 0x19#7 .ccLayerRecPause fun _ => decide_ne_of_cond 0
  · exact rowReencodes_control 0x1A#7 .ccLayerRecRecord fun _ => decide_ne_of_cond 0
  · exact rowReencodes_control 0x1B#7 .ccPower fun _ => decide_ne_of_cond 0
  · exact rowReencodes_group 0x08#5 .ccOscSelect fun _ _ => decide_ne_of_cond 0
  · exact rowReencodes_group 0x09#5 .ccOscMute fun _ _ => decide_ne_of_cond 0
  · exact rowReencodes_group 0x0A#5 .ccOscAmp fun _ _ _ _ => rfl

/-- The rows of the Bank controls (30_encoding R97). -/
theorem bankRows_reencode : ∀ r ∈ bankRows, RowReencodes r := by
  simp only [bankRows, List.forall_mem_cons, List.not_mem_nil, false_imp_iff, implies_true, and_true]
  refine ⟨?_, ?_, ?_, ?_, ?_, ?_, ?_, ?_, ?_, ?_⟩
  · exact rowReencodes_control 0x2C#7 .ccOscType fun _ => decide_ne_of_cond 0
  · exact rowReencodes_control 0x2D#7 .ccOctaveDown fun _ => decide_ne_of_cond 0
  · exact rowReencodes_control 0x2E#7 .ccOctaveUp fun _ => decide_ne_of_cond 0
  · exact rowReencodes_control 0x30#7 .ccModAmp fun _ => decide_ne_of_cond 0
  · exact rowReencodes_control 0x31#7 .ccModPitch fun _ => decide_ne_of_cond 0
  · exact rowReencodes_control 0x32#7 .ccModFilter fun _ => decide_ne_of_cond 0
  · exact rowReencodes_group 0x0D#5 .ccEnvelope fun _ _ _ _ => rfl
  · exact rowReencodes_control 0x38#7 .ccLfoSpeed fun _ _ _ => rfl
  · exact rowReencodes_control 0x39#7 .ccLfoAmp fun _ _ _ => rfl
  · exact rowReencodes_control 0x4A#7 .ccFilterCutoff fun _ _ _ => rfl

theorem rowReencodes_of_mem (r : DecodeRow) (h : r ∈ referenceTable) : RowReencodes r := by
  rcases (mem_referenceTable r).mp h with hr | hr
  · exact noteRows_reencode r hr
  · exact (List.mem_append.mp hr).elim (layerRows_reencode r) (bankRows_reencode r)

/-- A word that a row matches carries the instruction the row reads from it, which is well formed (30_encoding R94, R96,
R97). -/
theorem reencodes_of_matches (r : DecodeRow) (w : MsgWord) (hr : r ∈ referenceTable) (hm : r.matches w = true) :
    (r.build w).wf = true ∧ encode (r.build w) = .midi (wordB0 w) (wordB1 w) (wordB2 w) := by
  have hshape := rowShape_of_mem r hr
  have hw := eq_messageWord_of_matches r hshape w hm
  rw [hw] at hm ⊢
  obtain ⟨hst, hk, hv, hc⟩ := (matches_messageWord_iff r hshape _ _ _ _).mp hm
  rw [hst]
  simpa [messageWord, message] using rowReencodes_of_mem r hr (fieldCh w) (fieldK w) (fieldV w) hk hv hc

/-! ## Transactions -/

/-- What a message's word decodes to is well formed, and carried by that message. -/
theorem decodeWord_reencodes (w : MsgWord) :
    (decodeWord w).wf = true ∧ encode (decodeWord w) = .midi (wordB0 w) (wordB1 w) (wordB2 w) := by
  cases hrec : recognized w with
  | true =>
    obtain ⟨r, hr, hm⟩ := (recognized_iff_matches w).mp hrec
    rw [decodeWord_of_matches r w hr hm]
    exact reencodes_of_matches r w hr hm
  | false =>
    rw [decodeWord_of_not_recognized w hrec]
    exact ⟨by simp [Instr.wf, hrec], rfl⟩

/-- What an action on the bus decodes to is well formed, and carried by that action (30_encoding R100). -/
theorem decodeBus_reencodes (code : BitVec 5) (p : Int) (x : Num64) (i : Instr)
    (h : decodeBus Config.chip code p x = .ok i) : i.wf = true ∧ encode i = .bus code p x := by
  unfold decodeBus at h
  split at h
  · cases h
  · rename_i hfits
    have hfits : Config.chip.paramFits p = true := by simpa using hfits
    split at h
    case h_6 hcode =>
      obtain rfl : code = 5#5 := BitVec.eq_of_toNat_eq hcode
      split_ifs at h
      all_goals
        obtain rfl := Except.ok.inj h
        subst p
        exact ⟨rfl, rfl⟩
    case h_32 =>
      have hne : ∀ n < 31, code.toNat ≠ n := fun n hn => by interval_cases n <;> assumption
      have hge : ¬ code.toNat < 31 := fun hlt => hne _ hlt rfl
      obtain rfl : code = 31#5 := BitVec.eq_of_toNat_eq (Nat.le_antisymm (Nat.lt_succ_iff.mp code.isLt) (not_lt.mp hge))
      obtain rfl := Except.ok.inj h
      exact ⟨hfits, rfl⟩
    all_goals
      rename_i hcode
      obtain rfl := Except.ok.inj h
      exact ⟨hfits, congrArg (Txn.bus · p x) (BitVec.eq_of_toNat_eq hcode.symm)⟩

/-- The per-instruction family EncodedRow (Laws), for the messages together. -/
theorem encodedRow_of_message (i : Instr) (hm : isMessage i = true) : EncodedRow.Statement i := by
  cases i with
  | noteOn => exact EncodedRow.noteOn _ _ _
  | noteOnZero => exact EncodedRow.noteOnZero _ _
  | noteOff => exact EncodedRow.noteOff _ _ _
  | bendCentre => exact EncodedRow.bendCentre _ _
  | bend => exact EncodedRow.bend _ _ _
  | ccMasterVol => exact EncodedRow.ccMasterVol _ _
  | ccLayerSelect => exact EncodedRow.ccLayerSelect _ _ _
  | ccLayerAmp => exact EncodedRow.ccLayerAmp _ _ _
  | ccLayerRecStop => exact EncodedRow.ccLayerRecStop _ _
  | ccLayerRecPause => exact EncodedRow.ccLayerRecPause _ _
  | ccLayerRecRecord => exact EncodedRow.ccLayerRecRecord _ _
  | ccPower => exact EncodedRow.ccPower _ _
  | ccOscSelect => exact EncodedRow.ccOscSelect _ _ _
  | ccOscMute => exact EncodedRow.ccOscMute _ _ _
  | ccOscAmp => exact EncodedRow.ccOscAmp _ _ _
  | ccOscType => exact EncodedRow.ccOscType _ _
  | ccOctaveDown => exact EncodedRow.ccOctaveDown _ _
  | ccOctaveUp => exact EncodedRow.ccOctaveUp _ _
  | ccModAmp => exact EncodedRow.ccModAmp _ _
  | ccModPitch => exact EncodedRow.ccModPitch _ _
  | ccModFilter => exact EncodedRow.ccModFilter _ _
  | ccEnvelope => exact EncodedRow.ccEnvelope _ _ _
  | ccLfoSpeed => exact EncodedRow.ccLfoSpeed _ _
  | ccLfoAmp => exact EncodedRow.ccLfoAmp _ _
  | ccFilterCutoff => exact EncodedRow.ccFilterCutoff _ _
  | noMatch => exact EncodedRow.noMatch _
  | _ => cases hm

/-- A well-formed message instruction is decoded from its word, which its own row matches, or else no row (30_encoding
R94). -/
theorem decodeTxn_encode_of_message (i : Instr) (hm : isMessage i = true) (hwf : i.wf = true) :
    decodeTxn (encode i) = .ok i := by
  have hrow := encodedRow_of_message i hm hwf
  cases he : encode i with
  | midi b0 b1 b2 =>
    rw [he] at hrow
    refine congrArg Except.ok ?_
    rcases hrow with rfl | ⟨r, hr, hmatch, hb⟩
    · exact decodeWord_of_not_recognized _ (by simpa [Instr.wf] using hwf)
    · exact (decodeWord_of_matches r _ hr hmatch).trans hb
  | buf | bus => simp [isMessage, he] at hm

/-- An action whose param fits is not rejected for its width (10_state R61). -/
theorem not_not_paramFits {p : Int} (h : Config.chip.paramFits p = true) : ¬ (!Config.chip.paramFits p) = true := by
  simp [h]

/-- A request, and an action whose param fits, is decoded from its transaction (30_encoding R100). -/
theorem decodeTxn_encode_of_not_message (i : Instr) (hm : isMessage i = false) (hwf : i.wf = true) :
    decodeTxn (encode i) = .ok i := by
  cases i with
  | buf | actLayerRecStop | actLayerRecPause | actLayerRecRecord => rfl
  | actMasterVol | actAddNote | actRemoveNote | actLayerSelect | actLayerAmp | actOscSelect | actOscMute | actOscAmp
  | actOscType | actOscOctave | actOscPitch | actModSelect | actEnvelope | actLfo | actFilterCutoff | actPower | actUnison
  | actReserved18 | actReserved19 | actReserved20 | actReserved21 | actReserved22 | actReserved23 | actReserved24
  | actReserved25 | actReserved26 | actReserved27 | actReserved28 | actReserved29 | actReserved30 | actReserved31 =>
    exact if_neg (not_not_paramFits hwf)
  | _ => cases hm

/-- Settles O1: a message is read by its own row, an action by its code. -/
theorem encodedInstructionDecodes : Obligations.EncodedInstructionDecodes := by
  intro i hwf
  cases hm : isMessage i with
  | true => exact decodeTxn_encode_of_message i hm hwf
  | false => exact decodeTxn_encode_of_not_message i hm hwf

/-- Settles O2: message by message and action by action. -/
theorem decodedTransactionReencodes : Obligations.DecodedTransactionReencodes := by
  intro x i h
  cases x with
  | midi b0 b1 b2 =>
    obtain rfl : decodeWord (wordOf b0 b1 b2) = i := Except.ok.inj h
    simpa using decodeWord_reencodes (wordOf b0 b1 b2)
  | buf =>
    obtain rfl : Instr.buf = i := Except.ok.inj h
    exact ⟨rfl, rfl⟩
  | bus code p x => exact decodeBus_reencodes code p x i h

/-- Settles O4: outside the list no row matches; in it the row that matches reads a well-formed instruction from the word,
which NO_MATCH of that word is not. -/
theorem unrecognizedWordsDoNothing : Obligations.UnrecognizedWordsDoNothing := by
  refine fun w s => ⟨fun hrec => ?_, fun hrec u hu => ?_⟩
  · rw [decodeWord_of_not_recognized w hrec]
    exact ⟨rfl, rfl⟩
  · obtain ⟨hwf, henc⟩ := decodeWord_reencodes w
    rw [hu] at hwf henc
    obtain ⟨h0, h1, h2⟩ := Txn.midi.inj henc
    have huw : u = w := by rw [← wordOf_bytes u, h0, h1, h2, wordOf_bytes]
    simp [Instr.wf, huw, hrec] at hwf

/-! ## The channel -/

/-- A word with its channel nibble cleared (30_encoding R93). -/
def clearChannel (w : MsgWord) : MsgWord := w &&& 0xF0FFFF#24

@[simp] theorem wordB2_clearChannel (w : MsgWord) : wordB2 (clearChannel w) = wordB2 w :=
  BitVec.extractLsb'_and.trans BitVec.and_allOnes

@[simp] theorem fieldK_clearChannel (w : MsgWord) : fieldK (clearChannel w) = fieldK w :=
  BitVec.extractLsb'_and.trans BitVec.and_allOnes

@[simp] theorem fieldV_clearChannel (w : MsgWord) : fieldV (clearChannel w) = fieldV w :=
  BitVec.extractLsb'_and.trans BitVec.and_allOnes

@[simp] theorem fieldIdx_clearChannel (w : MsgWord) : fieldIdx (clearChannel w) = fieldIdx w :=
  BitVec.extractLsb'_and.trans BitVec.and_allOnes

theorem mask_leaves_channel : ∀ r ∈ referenceTable, 0xF0FFFF#24 &&& r.mask = r.mask := by decide

/-- A row of the reference table matches whatever the channel (30_encoding R93). -/
theorem matches_clearChannel (r : DecodeRow) (hr : r ∈ referenceTable) (w : MsgWord) :
    r.matches (clearChannel w) = r.matches w := by
  rw [DecodeRow.matches, DecodeRow.matches, wordB2_clearChannel, clearChannel, BitVec.and_assoc, mask_leaves_channel r hr]

theorem recognized_clearChannel (w : MsgWord) : recognized (clearChannel w) = recognized w := by
  rw [Bool.eq_iff_iff, recognized_iff_matches, recognized_iff_matches]
  exact exists_congr fun r => and_congr_right fun hr => by rw [matches_clearChannel r hr]

/-- A row derives its action from no part of the channel (40_decoder R111 to R135). -/
theorem busAction_build_clearChannel (c : Config) (w : MsgWord) :
    ∀ r ∈ referenceTable, busAction c (r.build (clearChannel w)) = busAction c (r.build w) := by
  simp [referenceTable, noteRows, layerRows, bankRows, busAction]

theorem busAction_decodeWord_clearChannel (c : Config) (w : MsgWord) :
    busAction c (decodeWord (clearChannel w)) = busAction c (decodeWord w) := by
  cases hrec : recognized w with
  | true =>
    obtain ⟨r, hr, hm⟩ := (recognized_iff_matches w).mp hrec
    rw [decodeWord_of_matches r w hr hm, decodeWord_of_matches r _ hr ((matches_clearChannel r hr w).trans hm)]
    exact busAction_build_clearChannel c w r hr
  | false =>
    rw [decodeWord_of_not_recognized w hrec, decodeWord_of_not_recognized _ ((recognized_clearChannel w).trans hrec)]
    rfl

/-- A word decodes to a message row. -/
theorem isMessage_decodeWord (w : MsgWord) : isMessage (decodeWord w) = true := by
  rw [isMessage, (decodeWord_reencodes w).2]

/-- What a word decodes to does the same whatever the channel (30_encoding R93). -/
theorem exec_decodeWord_clearChannel (w : MsgWord) (s : State) :
    exec (decodeWord (clearChannel w)) s = exec (decodeWord w) s := by
  rw [exec_message _ _ (isMessage_decodeWord _), exec_message _ _ (isMessage_decodeWord _),
    busAction_decodeWord_clearChannel]

/-- Settles O6: a word does what it does with its channel cleared. -/
theorem channelIsIgnored : Obligations.ChannelIsIgnored := by
  intro w u s (h : clearChannel w = clearChannel u)
  constructor
  · rw [← recognized_clearChannel w, h, recognized_clearChannel]
  · rw [← exec_decodeWord_clearChannel w, h, exec_decodeWord_clearChannel]

/-- Settles O16: row by row. -/
theorem decodedActionsAreWellFormed : Obligations.DecodedActionsAreWellFormed := wellFormedAction_of_message

/-- Settles O5: each word evaluated. -/
theorem sampleWordsDecode : Obligations.SampleWordsDecode := by
  unfold Obligations.SampleWordsDecode
  exact ⟨by decide, by decide, by decide, by decide, by decide, by decide, by decide, rfl, rfl⟩

end Sys2Proof.Proofs

/-! The decoder (40_decoder): that the reference table is admissible and its row order decides nothing, the messages without
an action, and the value maps of the messages at their ends. -/

namespace Sys2Proof.Proofs

open Sys2Proof Sys2Proof.Machine Sys2Proof.Safety Sys2Proof.Laws

/-! ## The order of the rows -/

/-- A row of the reference table reads a message instruction even from a word it does not match (30_encoding R96, R97). -/
theorem isMessage_build (w : MsgWord) : ∀ r ∈ referenceTable, isMessage (r.build w) = true :=
  have hall : referenceTable.all (fun r => isMessage (r.build w)) = true := rfl
  List.all_eq_true.mp hall

/-- The reference table keeps what 30_encoding R95 demands, at the block's parameters. -/
theorem admissibleTable_chip : AdmissibleTable Config.chip where
  disjoint := disjointRows_referenceTable
  noBuf r hr w hbuf := by
    have hm := isMessage_build w r hr
    rw [hbuf] at hm
    cases hm
  wellFormed r hr w a ha :=
    wellFormedAction_of_message Config.chip _ a chip_a4.1 chip_a4.2 (isMessage_build w r hr) ha

/-- That rows are disjoint does not depend on their order. -/
theorem disjointRows_perm {table table' : List DecodeRow} (hp : table.Perm table') (hd : DisjointRows table) :
    DisjointRows table' :=
  hp.pairwise hd fun h w hw => h w hw.symm

/-- Where the rows are disjoint, their order decides nothing (40_decoder R139). -/
theorem decodeWith_perm {table table' : List DecodeRow} (hp : table.Perm table') (hd : DisjointRows table) (w : MsgWord) :
    decodeWith table w = decodeWith table' w := by
  by_cases hmatch : ∃ r ∈ table, r.matches w = true
  · obtain ⟨r, hr, hm⟩ := hmatch
    rw [decodeWith_of_matches table r w hd hr hm,
      decodeWith_of_matches table' r w (disjointRows_perm hp hd) (hp.mem_iff.mp hr) hm]
  · have hno : ∀ r ∈ table, r.matches w = false := by simpa using hmatch
    rw [decodeWith_of_no_match table w hno, decodeWith_of_no_match table' w fun r hr => hno r (hp.mem_iff.mpr hr)]

/-- Settles O3: the reference table is admissible, disjoint rows may be permuted, and the row that matches decides. -/
theorem tableRowsAreDisjoint : Obligations.TableRowsAreDisjoint :=
  ⟨admissibleTable_chip, fun _ hp w => (decodeWith_perm hp.symm disjointRows_referenceTable w).symm, decodeWith_of_matches⟩

/-! ## Messages without an action -/

/-- A message that derives no action changes nothing (40_decoder R110). -/
theorem exec_of_no_action (i : Instr) (s : State) (hm : isMessage i = true) (ha : busAction Config.chip i = none) :
    exec i s = .next s := by
  rw [exec_message i s hm, ha]

/-- Settles O29: each of them is a message that derives no action, a button row because its value is 0. -/
theorem messagesWithoutActionChangeNothing : Obligations.MessagesWithoutActionChangeNothing := by
  intro ch k idx w s
  refine ⟨?_, ?_, ?_, ?_, ?_, ?_, ?_, ?_, ?_, ?_, ?_, ?_, ?_, ?_, ?_, ?_⟩ <;> exact exec_of_no_action _ s rfl rfl

/-! ## The normalized controller value -/

theorem normalized_zero : normalized Config.chip 0#7 = Num64.zero := by decide

theorem normalized_max : normalized Config.chip 127#7 = Num64.one := by decide

/-- A controller value has a smaller normalized value than its successor, quotient by quotient. -/
theorem normalized_lt_succ : ∀ v : BitVec 7, v ≠ 127#7 →
    Num64.lt (normalized Config.chip v) (normalized Config.chip (v + 1#7)) = true := by decide

theorem num64_lt_trans {x y z : Num64} (hxy : Num64.lt x y = true) (hyz : Num64.lt y z = true) :
    Num64.lt x z = true := by
  simp only [Num64.lt, Bool.and_eq_true, decide_eq_true_eq] at hxy hyz ⊢
  obtain ⟨⟨hx, -⟩, hkey⟩ := hxy
  obtain ⟨⟨-, hz⟩, hkey'⟩ := hyz
  exact ⟨⟨hx, hz⟩, hkey.trans hkey'⟩

/-- A controller value has a smaller normalized value than each one above it (40_decoder R137). -/
theorem normalized_lt_add (v : BitVec 7) (n : Nat) (h : v.toNat + (n + 1) < 128) :
    Num64.lt (normalized Config.chip v) (normalized Config.chip (v + BitVec.ofNat 7 (n + 1))) = true := by
  induction n with
  | zero => exact normalized_lt_succ v (by rintro rfl; simp at h)
  | succ n ih =>
    have hsucc : v + BitVec.ofNat 7 (n + 1 + 1) = v + BitVec.ofNat 7 (n + 1) + 1#7 := by
      rw [BitVec.add_assoc, BitVec.ofNat_add]
    rw [hsucc]
    refine num64_lt_trans (ih (by omega)) (normalized_lt_succ _ ?_)
    bv_omega

theorem normalized_lt (v u : BitVec 7) (h : v.toNat < u.toNat) :
    Num64.lt (normalized Config.chip v) (normalized Config.chip u) = true := by
  have hu := u.isLt
  have hsum : v + BitVec.ofNat 7 (u.toNat - v.toNat - 1 + 1) = u := by bv_omega
  rw [← hsum]
  exact normalized_lt_add v _ (by omega)

/-! ## The cutoff curve at its ends -/

theorem pow2_eq (n : Nat) : pow2 n = 2 ^ n := by
  rw [pow2, ← pow_mul, ← pow_add, Nat.div_add_mod]

theorem pow2_pos (n : Nat) : 0 < pow2 n := pow2_eq n ▸ Nat.two_pow_pos n

theorem pow2_add (m n : Nat) : pow2 (m + n) = pow2 m * pow2 n := by
  simp only [pow2_eq, pow_add]

/-- A number with `k` zero bits at its end loses nothing when rounded to the bits above them. -/
theorem roundShift_mul_pow2 (q k : Nat) : Num64.roundShift (q * pow2 k) k = q := by
  simp [Num64.roundShift, (pow2_pos k).ne, (pow2_pos k).ne']

/-- One is exact, however many bits it is given with. -/
theorem round_one (k : Nat) : Num64.round false (pow2 (53 + k)) (-(53 + k : Nat)) = Num64.one := by
  have hlog : Nat.log2 (pow2 (53 + k)) = 53 + k := by rw [pow2_eq, Nat.log2_two_pow]
  have hexp : max (((53 + k : Nat) : Int) + -(53 + k : Nat) - 52) (-1074) = -52 := by omega
  have hfrac : ¬ (-52 : Int) ≤ -(53 + k : Nat) := by omega
  have hshift : ((-52 : Int) - -(53 + k : Nat)).toNat = k + 1 := by omega
  have hsplit : pow2 (53 + k) = pow2 52 * pow2 (k + 1) := by rw [← pow2_add]; congr 1; omega
  rw [Num64.round, if_neg (pow2_pos _).ne', hlog]
  dsimp only
  rw [hexp, if_neg hfrac, hshift, hsplit, roundShift_mul_pow2]
  decide

/-- The series of `2 * artanh 0` is 0. -/
theorem artanhSeries_zero (fuel k : Nat) : Fix.artanhSeries 0 fuel k 0 = 0 := by
  induction fuel generalizing k with
  | zero => rfl
  | succ fuel ih => simp [Fix.artanhSeries, Fix.mul, ih]

/-- `ln 1` is 0. -/
theorem lnRatio_self (p : Nat) : Fix.lnRatio p p = 0 := by
  simp [Fix.lnRatio, Fix.mul, artanhSeries_zero]

theorem fixMul_one (a : Nat) : Fix.mul a Fix.one = a := Nat.mul_div_cancel a (pow2_pos 320)

theorem expSeries_zero (fuel k t : Nat) : Fix.expSeries 0 fuel k t = 0 := by
  induction fuel generalizing k t with
  | zero => rfl
  | succ fuel ih => simp [Fix.expSeries, Fix.mul, ih]

theorem squares_one (n : Nat) : Fix.squares n Fix.one = Fix.one := by
  induction n with
  | zero => rfl
  | succ n ih => rw [Fix.squares, fixMul_one, ih]

/-- `exp 0` is 1, in fixed point. -/
theorem fixExp_zero : Fix.exp 0 = Fix.one := by
  rw [Fix.exp, Nat.zero_div, expSeries_zero, Nat.add_zero, squares_one]

/-- `exp (-0)` is exactly 1. -/
theorem expNum_zero : Fix.expNum true 0 = Num64.one := by
  have hinv : pow2 2400 / Fix.one = pow2 2080 :=
    Nat.div_eq_of_eq_mul_left (pow2_pos 320) (pow2_add 2080 320)
  rw [Fix.expNum, if_pos rfl, fixExp_zero, hinv]
  exact round_one 2027

theorem powE_zero : Num64.powE Num64.zero = Num64.zero := by decide

/-- 1 to the power `e` is exactly 1 (40_decoder R135): `ln 1` is 0 and `exp 0` is 1. -/
theorem powE_one : Num64.powE Num64.one = Num64.one := by
  have hval : Num64.val Num64.one = .fin false (pow2 52) (-52) := by decide
  have hlog : Nat.log2 (pow2 52) = 52 := by decide
  have hlt : Num64.lt Num64.one Num64.one = false := by decide
  simp [Num64.powE, hval, hlog, hlt, (pow2_pos 52).ne', lnRatio_self, expNum_zero]

/-! ## The ends of the other maps -/

theorem bendValue_zero : bendValue Config.chip 0#7 = 0xC028000000000000#64 := by decide

theorem bendValue_max : bendValue Config.chip 127#7 = 0x4027A00000000000#64 := by decide

/-- The envelope time of 0 is `(exp 0 - 1) / 2 * 500` (41_actions R175). -/
theorem envTime_zero : NumType.binary64.envTime Num64.zero = Num64.zero := by decide

/-- Settles O46: the normalized value, the cutoff curve of it, the bend and the envelope time in turn. -/
theorem controllerScaleIncreases : Obligations.ControllerScaleIncreases := by
  refine ⟨normalized_zero, normalized_max, normalized_lt, ?_, ?_, bendValue_zero, bendValue_max, envTime_zero⟩
  · rw [cutoffValue, normalized_zero, chip_num, binary64_powE, powE_zero]
  · rw [cutoffValue, normalized_max, chip_num, binary64_powE, powE_one]

end Sys2Proof.Proofs

/-! The actions of the Router as a whole (41_actions section 1): that every step keeps the invariant of the block, which
instructions are refused and which fault, and which Layer an action reaches. -/

namespace Sys2Proof.Proofs

open Sys2Proof Sys2Proof.Machine Sys2Proof.Safety Sys2Proof.Laws

/-! ## The invariant -/

/-- Whatever an instruction does, it keeps the invariant, under any parameters. -/
theorem execWith_inv (c : Config) (i : Instr) (s t : State) (hs : StateInv c s) (h : execWith c i s = .next t) :
    StateInv c t := by
  by_cases hb : i = .buf
  · subst hb
    exact synthNextBuffer_inv c s t hs h
  · rw [execWith_of_ne_buf c i s hb] at h
    split at h
    · cases h
      exact hs
    · exact applyAction_inv c _ s t hs h

/-- A stopped run answers no next state (60_exceptions R262, R263). -/
theorem stoppedBy_ne_next (s t : State) : stoppedBy s ≠ some (.next t) := by
  unfold stoppedBy
  cases s.refusalMark <;> cases s.faultRecord <;> simp

/-- A step that is answered has waited, or has carried out an instruction on its transaction (20_memory R70, R71). -/
theorem stepWith_next_cases (c : Config) (s t : State) (h : stepWith c s = .next t) :
    t = s ∨ ∃ i rest, execWith c i (consume rest s) = .next t := by
  unfold stepWith at h
  split at h
  next o ho =>
    subst h
    exact absurd ho (stoppedBy_ne_next s t)
  next =>
    split at h
    next =>
      cases h
      exact Or.inl rfl
    next x rest _ =>
      split at h
      · cases h
      next i _ => exact Or.inr ⟨i, rest, h⟩

theorem stepWith_inv (c : Config) (s t : State) (hs : StateInv c s) (h : stepWith c s = .next t) : StateInv c t := by
  rcases stepWith_next_cases c s t h with rfl | ⟨i, rest, hi⟩
  · exact hs
  · exact execWith_inv c i (consume rest s) t hs hi

/-- Settles O11: a step waits or carries out an instruction, and every instruction keeps the invariant. -/
theorem stepKeepsInvariant : Obligations.StepKeepsInvariant :=
  ⟨fun s t hs h => stepWith_inv Config.chip s t hs (step_eq_stepWith s ▸ h), stepWith_inv⟩

/-! ## Refusals and faults -/

/-- An action that is not well formed is refused (41_actions R150). -/
theorem applyAction_of_illFormed (c : Config) (a : Action) (s : State) (h : wellFormedAction c a = false) :
    applyAction c a s = .refused .illFormedAction := if_neg (by simp [h])

/-- The dispatch of a well-formed action is not refused: the Layer it names, if it names one, is there. -/
theorem dispatchAction_ne_refused (c : Config) (a : Action) (s : State) (r : Refusal) (h : wellFormedAction c a = true) :
    dispatchAction c a s ≠ .refused r := by
  unfold dispatchAction
  split
  case h_1 | h_4 => simp [setPowerOff]
  case h_2 hc =>
    obtain ⟨l, hl⟩ := Option.isSome_iff_exists.mp (by simpa [wellFormedAction, hc] using h)
    simp [hl]
  case h_3 hc =>
    obtain ⟨l, hl⟩ := Option.isSome_iff_exists.mp (by simpa [wellFormedAction, hc] using h)
    simpa [hl] using applyToLayer_refused c l a s r
  case h_5 => exact applyToLayer_refused c _ a s r

/-- What the dispatch faults on: an octave of the selected Bank that does not fit (41_actions R169). -/
theorem dispatchAction_fault (c : Config) (a : Action) (s : State) (f : Fault) :
    dispatchAction c a s = .fault f ↔
      f = .octaveOverflow ∧ a.code = .oscOctave ∧
        c.octFits (((s.layer.get s.selLayer).bank.get (s.layer.get s.selLayer).selBank).params.octave +
          c.num.trunc a.value) = false := by
  unfold dispatchAction
  split
  case h_1 hc | h_4 hc => simp [hc]
  case h_2 hc => split <;> simp [hc, refuseIllFormed]
  case h_3 hc => split <;> simp [hc, refuseIllFormed, applyToLayer_fault, layerApply_error]
  case h_5 =>
    rw [applyToLayer_fault, layerApply_error]
    exact and_left_comm

/-- The one reason to refuse an action that is applied (41_actions R150, 60_exceptions R262). -/
theorem applyAction_refused (c : Config) (a : Action) (s : State) (r : Refusal) :
    applyAction c a s = .refused r ↔ r = .illFormedAction ∧ wellFormedAction c a = false := by
  cases hwf : wellFormedAction c a with
  | true => simpa [applyAction_of_wellFormed c a s hwf] using dispatchAction_ne_refused c a s r hwf
  | false => simpa [applyAction_of_illFormed c a s hwf] using eq_comm

/-- Settles O18: of an instruction with an action it is the Router's refusal; no other instruction is refused. -/
theorem refusedExactlyWhereIllFormed : Obligations.RefusedExactlyWhereIllFormed := by
  intro i s r
  by_cases hb : i = .buf
  · subst hb
    have hbuf : exec .buf s ≠ .refused r := by
      show synthNextBuffer Config.chip s ≠ _
      unfold synthNextBuffer
      split <;> simp
    simp [hbuf, busAction]
  · rw [instructionAppliesItsAction i s hb]
    cases ha : busAction Config.chip i with
    | none => simp
    | some a => simp [applyAction_refused]

/-- Settles O19: an action that is applied faults where it is well formed and its dispatch does. -/
theorem octaveFaultsExactlyOnOverflow : Obligations.OctaveFaultsExactlyOnOverflow := by
  intro i s f hb
  rw [instructionAppliesItsAction i s hb]
  cases ha : busAction Config.chip i with
  | none => simp
  | some a =>
    cases hwf : wellFormedAction Config.chip a with
    | true => simp [applyAction_of_wellFormed _ a s hwf, dispatchAction_fault, hwf]
    | false => simp [applyAction_of_illFormed _ a s hwf, hwf]

/-- Settles O22: their actions are never well formed, so they are refused (O18), and a message derives well-formed
actions only. -/
theorem unisonAndReservedRefused : Obligations.UnisonAndReservedRefused := by
  refine ⟨fun p x s => ?_, fun _ _ _ => ⟨rfl, rfl⟩, fun i a hm ha => ?_⟩
  · refine ⟨?_, ?_, ?_, ?_, ?_, ?_, ?_, ?_, ?_, ?_, ?_, ?_, ?_, ?_, ?_⟩ <;>
      exact (refusedExactlyWhereIllFormed _ s _).mpr ⟨rfl, _, rfl, rfl⟩
  · have hwf := wellFormedAction_of_message Config.chip i a chip_a4.1 chip_a4.2 hm ha
    exact ⟨fun hc => by simp [wellFormedAction, hc] at hwf, fun n hc => by simp [wellFormedAction, hc] at hwf⟩

/-! ## The Layer an action reaches -/

/-- An instruction with an action is no buffer request. -/
theorem ne_buf_of_action {c : Config} {i : Instr} {a : Action} (ha : busAction c i = some a) : i ≠ .buf := by
  rintro rfl
  cases ha

/-- An action that is answered was processed by no Layer, which all stay, or dispatched in the one that processes it
(41_actions R150, R151). -/
theorem exec_action_cases (i : Instr) (a : Action) (s t : State) (ha : busAction Config.chip i = some a)
    (h : exec i s = .next t) :
    (processedBy s a = none ∧ ∃ l x p, t = { s with selLayer := l, masterAmp := x, powerOff := p }) ∨
    ∃ l L, processedBy s a = some l ∧ layerApply Config.chip s.freeDraws a true (s.layer.get l) = .ok L ∧
      t = s.setLayer l L := by
  rcases exec_next_cases i s t h with hb | ⟨hnone, _⟩ | ⟨b, hb, hcase⟩
  · exact absurd hb (ne_buf_of_action ha)
  · rw [ha] at hnone
    cases hnone
  · obtain rfl : a = b := Option.some.inj (ha.symm.trans hb)
    rcases hcase with ⟨hc, rfl⟩ | ⟨hc, _, _, rfl⟩ | ⟨hc, rfl⟩ | hlayer
    · exact Or.inl ⟨by simp [processedBy, hc], _, _, _, rfl⟩
    · exact Or.inl ⟨by simp [processedBy, hc], _, _, _, rfl⟩
    · exact Or.inl ⟨by simp [processedBy, hc], _, _, _, rfl⟩
    · exact Or.inr hlayer

/-- Writing a Layer leaves everything outside it. -/
theorem onlyLayer_setLayer (s : State) (l : Fin 4) (L : Layer) : OnlyLayer l s (s.setLayer l L) :=
  ⟨⟨rfl, rfl, rfl, rfl, rfl, rfl, rfl, rfl⟩, fun k hk => setLayer_get_ne s l k L hk⟩

/-- Settles O23: the dispatch in the Layer that processes the action writes its counter; the other Layers stay. -/
theorem pressCounterFollowsActions : Obligations.PressCounterFollowsActions := by
  intro i a s t ha h l
  rcases exec_action_cases i a s t ha h with ⟨hnone, _, _, _, rfl⟩ | ⟨k, L, hk, hL, rfl⟩
  · simp [hnone]
  · rw [hk]
    by_cases hlk : l = k
    · subst hlk
      rw [setLayer_get, layerApply_presses _ _ a true _ L hL, if_pos rfl]
      simp [isRecStop]
    · rw [setLayer_get_ne s k l L hlk, if_neg (by simpa using Ne.symm hlk)]

/-- Settles O24: the dispatch writes the Layer that processes the action, or the Synth's own registers. -/
theorem actionTouchesOnlyItsLayer : Obligations.ActionTouchesOnlyItsLayer := by
  intro i a s t ha h
  rcases exec_action_cases i a s t ha h with ⟨hnone, _, _, _, rfl⟩ | ⟨k, L, hk, _, rfl⟩
  · exact ⟨fun _ _ => rfl, absurd hnone, rfl, rfl, rfl, rfl, rfl⟩
  · obtain ⟨hout, hothers⟩ := onlyLayer_setLayer s k L
    refine ⟨fun l hl => hothers l ?_, fun _ => hout, rfl, rfl, rfl, rfl, rfl⟩
    rintro rfl
    exact hl hk

end Sys2Proof.Proofs

/-! The Router's actions one by one (41_actions R154 to R187), from a message or from the bus: the Synth's own, the notes, the
recording buttons and the controls of the Banks. Each instruction answers its action's dispatch, and a Layer's action writes
what its dispatch in that Layer does. -/

namespace Sys2Proof.Proofs

open Sys2Proof Sys2Proof.Machine Sys2Proof.Safety Sys2Proof.Laws

/-! ## An instruction by its action -/

section Dispatch

variable {i : Instr} {a : Action} {s : State}

/-- An instruction whose action is well formed answers its dispatch (41_actions R150). -/
theorem exec_eq_dispatchAction (ha : busAction Config.chip i = some a) (hwf : wellFormedAction Config.chip a = true) :
    exec i s = dispatchAction Config.chip a s := by
  rw [instructionAppliesItsAction i s (ne_buf_of_action ha), ha]
  exact applyAction_of_wellFormed _ a s hwf

/-- The action of a Layer is dispatched in the Layer that processes it (41_actions R150, R151). -/
theorem dispatchAction_of_processedBy (c : Config) {l : Fin 4} (hl : processedBy s a = some l) :
    dispatchAction c a s = applyToLayer c l a s := by
  unfold processedBy at hl
  unfold dispatchAction
  split at hl
  case h_1 | h_2 | h_3 => cases hl
  case h_4 hc => simp [hc, hl]
  case h_5 =>
    cases hl
    cases hc : a.code <;> simp_all

/-- An instruction whose action one Layer processes answers the state with that Layer as its dispatch leaves it. -/
theorem exec_eq_setLayer {l : Fin 4} {M : Layer} (ha : busAction Config.chip i = some a)
    (hwf : wellFormedAction Config.chip a = true) (hl : processedBy s a = some l)
    (hM : layerApply Config.chip s.freeDraws a true (s.layer.get l) = .ok M) : exec i s = .next (s.setLayer l M) := by
  rw [exec_eq_dispatchAction ha hwf, dispatchAction_of_processedBy _ hl, applyToLayer_next]
  exact ⟨M, hM, rfl⟩

theorem selectedLayerBecomes_of_action {M : Layer} (ha : busAction Config.chip i = some a)
    (hwf : wellFormedAction Config.chip a = true) (hl : processedBy s a = some s.selLayer)
    (hM : layerApply Config.chip s.freeDraws a true (s.layer.get s.selLayer) = .ok M) : SelectedLayerBecomes i s M :=
  ⟨_, exec_eq_setLayer ha hwf hl hM, onlyLayer_setLayer _ _ _, setLayer_get _ _ _⟩

/-- Every action but LAYER_REC button 0 clears the press counter (41_actions R151). -/
theorem clearPresses_of_not_recStop (L : Layer) (h : isRecStop a = false) :
    clearPresses a L = { L with presses := false } := by
  rw [clearPresses_eq, h]
  rfl

/-- A setter of one Bank's parameters, after the press counter is cleared, writes these parameters only. -/
theorem writesParams_onParams (L : Layer) (b : Fin 4) (f : Params → Params) (h : isRecStop a = false) :
    WritesParams b (f (L.bank.get b).params) L ((clearPresses a L).onParams b f) := by
  rw [clearPresses_of_not_recStop L h]
  exact {
    controls := ⟨rfl, rfl, rfl, rfl⟩
    presses := rfl
    recorder := rfl
    others := fun k hk => onParams_get_ne _ b k f hk
    params := by rw [onParams_get]
    slots := by rw [onParams_get]
    noteMap := by rw [onParams_get] }

/-- An instruction whose action is dispatched to a setter of a Bank's parameters writes that Bank as the setter says. -/
theorem writesSelectedBank_of_action {b : Fin 4} {f : Params → Params} {rel : Params → Params → Prop}
    (ha : busAction Config.chip i = some a) (hwf : wellFormedAction Config.chip a = true)
    (hl : processedBy s a = some s.selLayer) (hrec : isRecStop a = false)
    (hM : layerApply Config.chip s.freeDraws a true (s.layer.get s.selLayer) =
      .ok ((clearPresses a (s.layer.get s.selLayer)).onParams b f))
    (hrel : rel ((s.layer.get s.selLayer).bank.get b).params (f ((s.layer.get s.selLayer).bank.get b).params)) :
    WritesSelectedBank i s b rel := by
  refine ⟨_, _, exec_eq_setLayer ha hwf hl hM, onlyLayer_setLayer _ _ _, ?_, hrel⟩
  rw [setLayer_get]
  exact writesParams_onParams _ b f hrec

end Dispatch

/-! ## The Synth's own actions and LAYER_AMP -/

/-- MASTER_VOL stores its value (41_actions R154). -/
theorem exec_masterVol {i : Instr} {x : Num64} (s : State) (ha : busAction Config.chip i = some ⟨.masterVol, 0, x⟩) :
    exec i s = .next { s with masterAmp := x } := exec_eq_dispatchAction ha rfl

/-- Settles O25: both rows carry MASTER_VOL. -/
theorem masterVolumeSetsMasterAmplitude : Obligations.MasterVolumeSetsMasterAmplitude := fun _ _ _ s =>
  ⟨exec_masterVol s rfl, exec_masterVol s rfl⟩

/-- LAYER_SELECT of an index selects that Layer (41_actions R155). -/
theorem exec_layerSelect {i : Instr} {l : Fin 4} {x : Num64} (s : State)
    (ha : busAction Config.chip i = some ⟨.layerSelect, (l.val : Int), x⟩) :
    exec i s = .next { s with selLayer := l } := by
  rw [exec_eq_dispatchAction ha (by simp [wellFormedAction])]
  simp [dispatchAction]

/-- Settles O26: both rows name the Layer by its index. -/
theorem layerSelectSelectsLayer : Obligations.LayerSelectSelectsLayer := fun _ _ _ _ _ s =>
  ⟨fun hv => exec_layerSelect s (if_neg hv), exec_layerSelect s rfl⟩

/-- POWER sets the request (41_actions R187). -/
theorem exec_power {i : Instr} {x : Num64} (s : State) (ha : busAction Config.chip i = some ⟨.power, 0, x⟩) :
    exec i s = .next (setPowerOff s) := exec_eq_dispatchAction ha rfl

/-- Settles O28: both rows carry POWER. -/
theorem powerSetsPowerOff : Obligations.PowerSetsPowerOff := fun _ _ _ s =>
  ⟨fun hv => exec_power s (if_neg hv), exec_power s rfl⟩

/-- Settles O27: LAYER_AMP is processed by the Layer it names, whose dispatch writes the amplitude. -/
theorem layerAmplitudeSetsNamedLayer : Obligations.LayerAmplitudeSetsNamedLayer := by
  intro i l x s hi
  have ha : busAction Config.chip i = some ⟨.layerAmp, (l.val : Int), x⟩ := by
    rcases hi with ⟨_, _, _, rfl, rfl, rfl⟩ | rfl <;> rfl
  have hl : processedBy s ⟨.layerAmp, (l.val : Int), x⟩ = some l := index4_val l
  exact ⟨_, exec_eq_setLayer ha (by simp [wellFormedAction]) hl rfl, onlyLayer_setLayer _ _ _, setLayer_get _ _ _⟩

/-! ## Notes -/

/-- `bank_add` is what the relation says (41_actions R176). -/
theorem addedNote_bankAdd (c : Config) (off : Int) (vel : Num64) (B : Bank) : AddedNote c off B (bankAdd c off vel B) := by
  rcases bankAdd_cases c off vel B with ⟨⟨r, hk⟩, he⟩ | ⟨_, hfull, he⟩ | ⟨r, hk, hr, hlow, he⟩ <;> rw [he]
  · refine ⟨fun _ => rfl, fun _ => rfl, fun s hnone => ?_⟩
    rw [hk] at hnone
    cases hnone
  · exact ⟨fun _ => rfl, fun _ => rfl, fun s _ hs => absurd hs.1 (hfull s)⟩
  · refine ⟨fun hheld => ?_, fun hfull => absurd hr (hfull r), fun s _ hs => ?_⟩
    · rw [hk] at hheld
      cases hheld
    · obtain rfl : s = r := by
        rcases lt_trichotomy s r with hlt | heq | hgt
        · exact absurd hs.1 (hlow s hlt)
        · exact heq
        · exact absurd hr (hs.2 r hgt)
      exact ⟨rfl, slots_get_set _ _ _, fun q hq => slots_get_set_ne _ _ _ _ hq, kmap_get_put _ _ _,
        fun k hne => kmap_get_put_ne _ _ _ _ hne⟩

/-- `bank_remove` is what the relation says (41_actions R177). -/
theorem removedNote_bankRemove (c : Config) (k : Int) (B : Bank) : RemovedNote c k B (bankRemove c k B) := by
  rcases bankRemove_cases c k B with ⟨hk, he⟩ | ⟨r, hk, he⟩ <;> rw [he]
  · refine ⟨fun _ => rfl, fun s v hs => ?_⟩
    rw [hk] at hs
    cases hs
  · refine ⟨fun hnone => ?_, fun s v hs hv => ?_⟩
    · rw [hk] at hnone
      cases hnone
    · obtain rfl : r = s := Option.some.inj (hk.symm.trans hs)
      refine ⟨rfl, ?_, fun q hq => slots_get_set_ne _ _ _ _ hq, kmap_get_erase _ _,
        fun j hj => kmap_get_erase_ne _ _ _ hj⟩
      rw [slots_get_set, hv]
      rfl

/-- `record` is what the relation says (42_recorder R208). -/
theorem recorded_record (c : Config) (a : Action) (R : Recorder) : Recorded c a R (record c a R) := by
  obtain ⟨n, hn, ⟨hroom, he⟩ | ⟨hfull, he⟩⟩ := record_cases c a R <;> rw [he]
  · exact ⟨rfl, rfl, rfl, hn, fun _ => ⟨kmap_get_put _ _ _, fun m hm => kmap_get_put_ne _ _ _ _ hm⟩,
      fun h => absurd hroom (not_lt.mpr h)⟩
  · exact ⟨rfl, rfl, rfl, hn, fun h => absurd h (not_lt.mpr hfull), fun _ => rfl⟩

/-- The capture of a live action is what the relation says, whatever the dispatch did outside the Recorder (41_actions
R157). -/
theorem captured_capture (c : Config) (a : Action) (L M : Layer) (hrec : M.recording = L.recording)
    (hR : M.recorder = L.recorder) : Captured c a L (capture c a true M) := by
  rw [capture_eq, hrec, hR]
  constructor
  · intro h
    simpa [h] using recorded_record c a L.recorder
  · intro h
    simp [h]

/-- ADD_NOTE to every unmuted Bank, Bank by Bank (41_actions R152, R161). -/
theorem layerAddNote_banks (c : Config) (a : Action) (live : Bool) (L : Layer) :
    ∃ q, layerAddNote c a live L = capture c a live { L with bank := q } ∧
      ∀ b, q.get b = addUnlessMuted c a (L.mute.get b) (L.bank.get b) := by
  refine ⟨_, rfl, fun b => ?_⟩
  match b with
  | 0 => rfl
  | 1 => rfl
  | 2 => rfl
  | 3 => rfl

/-- What an instruction with a note action does outside the Banks: the selected Layer's controls stay, its press counter is
cleared and the action is captured (41_actions R151, R157). -/
theorem exec_note {i : Instr} {a : Action} (s : State) (q : Quad Bank) (ha : busAction Config.chip i = some a)
    (hwf : wellFormedAction Config.chip a = true) (hnote : isNoteAction a = true)
    (hM : layerApply Config.chip s.freeDraws a true (s.layer.get s.selLayer) =
      .ok (capture Config.chip a true { clearPresses a (s.layer.get s.selLayer) with bank := q })) :
    ∃ t, exec i s = .next t ∧ OnlyLayer s.selLayer s t ∧
      SameControls (s.layer.get s.selLayer) (t.layer.get s.selLayer) ∧
      (t.layer.get s.selLayer).presses = false ∧
      Captured Config.chip a (s.layer.get s.selLayer) (t.layer.get s.selLayer) ∧
      (t.layer.get s.selLayer).bank = q := by
  have hcode : a.code = .addNote ∨ a.code = .removeNote := by simpa [isNoteAction] using hnote
  have hl : processedBy s a = some s.selLayer := by rcases hcode with hc | hc <;> simp [processedBy, hc]
  have hstop : isRecStop a = false := by rcases hcode with hc | hc <;> simp [isRecStop, hc]
  obtain ⟨t, ht, honly, hlayer⟩ := selectedLayerBecomes_of_action ha hwf hl hM
  have hpress := layerApply_presses _ _ a true _ _ hM
  have hkeep := layerApply_keepsOtherRegisters _ _ a true _ _ hM
  rw [← hlayer] at hpress hkeep
  refine ⟨t, ht, honly, sameControls_of_note a _ _ hnote hkeep, by rw [hpress, hstop]; rfl, ?_, ?_⟩
  · rw [hlayer]
    exact captured_capture _ a _ _ (by simp) (by simp)
  · rw [hlayer, capture_eq]

/-- Settles O30: ADD_NOTE is `bank_add` in every unmuted Bank, then the capture. -/
theorem addNoteReachesUnmutedBanks : Obligations.AddNoteReachesUnmutedBanks := by
  intro i off x s hi
  have ha : busAction Config.chip i = some ⟨.addNote, off, x⟩ := by
    rcases hi with ⟨_, _, _, rfl, rfl, rfl⟩ | ⟨rfl, _⟩ <;> rfl
  have hwf : Config.chip.paramFits off = true := by
    rcases hi with ⟨_, k, _, _, rfl, _⟩ | ⟨_, hfits⟩
    · exact paramFits_relativeNote _ k chip_a4.1 chip_a4.2
    · exact hfits
  obtain ⟨q, hq, hget⟩ := layerAddNote_banks Config.chip ⟨.addNote, off, x⟩ true
    (clearPresses ⟨.addNote, off, x⟩ (s.layer.get s.selLayer))
  obtain ⟨t, ht, honly, hcontrols, hpress, hcap, rfl⟩ := exec_note s q ha hwf rfl (congrArg Except.ok hq)
  refine ⟨t, ht, honly, hcontrols, hpress, hcap, fun b => ?_⟩
  rw [hget b, clearPresses_mute, clearPresses_bank]
  constructor
  · intro hm
    rw [hm]
    rfl
  · intro hm
    rw [hm]
    exact addedNote_bankAdd Config.chip off x _

/-- Settles O31: REMOVE_NOTE is `bank_remove` in all four Banks, then the capture. -/
theorem removeNoteReachesEveryBank : Obligations.RemoveNoteReachesEveryBank := by
  intro i k x s hi
  have ha : busAction Config.chip i = some ⟨.removeNote, k, x⟩ := by
    rcases hi with ⟨_, _, _, rfl, rfl, rfl⟩ | ⟨rfl, _⟩ <;> rfl
  have hwf : Config.chip.paramFits k = true := by
    rcases hi with ⟨_, n, _, _, rfl, _⟩ | ⟨_, hfits⟩
    · exact paramFits_key _ n
    · exact hfits
  obtain ⟨t, ht, honly, hcontrols, hpress, hcap, hbank⟩ := exec_note s _ ha hwf rfl rfl
  refine ⟨t, ht, honly, hcontrols, hpress, hcap, fun b => ?_⟩
  rw [hbank, quad_get_map, clearPresses_bank]
  exact removedNote_bankRemove Config.chip k _

/-! ## The recording buttons -/

/-- Settles O33: button 0, which alone does not clear the press counter, stops the Recorder and empties the Banks. -/
theorem stopButtonClearsLayer : Obligations.StopButtonClearsLayer := by
  intro i s hi
  obtain ⟨x, ha⟩ : ∃ x, busAction Config.chip i = some ⟨.layerRec, 0, x⟩ := by
    rcases hi with ⟨_, _, rfl, hv⟩ | ⟨x, rfl⟩
    · exact ⟨_, if_neg hv⟩
    · exact ⟨x, rfl⟩
  obtain ⟨t, ht, honly, hlayer⟩ : SelectedLayerBecomes i s (layerRecStop Config.chip (s.layer.get s.selLayer)) :=
    selectedLayerBecomes_of_action ha rfl rfl rfl
  refine ⟨t, ht, honly, ?_⟩
  rw [hlayer]
  refine ⟨rfl, rfl, rfl, rfl, rfl, rfl, fun b => ?_⟩
  rw [layerRecStop_get]
  exact ⟨slots_get_replicate, rfl, rfl⟩

/-- Settles O34: button 1 is `pause_toggle`. -/
theorem pauseButtonTogglesPause : Obligations.PauseButtonTogglesPause := by
  intro i s hi
  obtain ⟨x, ha⟩ : ∃ x, busAction Config.chip i = some ⟨.layerRec, 1, x⟩ := by
    rcases hi with ⟨_, _, rfl, hv⟩ | ⟨x, rfl⟩
    · exact ⟨_, if_neg hv⟩
    · exact ⟨x, rfl⟩
  have hbecomes : SelectedLayerBecomes i s
      { s.layer.get s.selLayer with
        presses := false
        recorder := pauseToggle (s.layer.get s.selLayer).recorder } := selectedLayerBecomes_of_action ha rfl rfl rfl
  constructor <;> intro harmed <;> simpa [pauseToggle, harmed] using hbecomes

/-- Settles O35: button 2 toggles the request. -/
theorem recordButtonTogglesRequest : Obligations.RecordButtonTogglesRequest := by
  intro i s hi
  obtain ⟨x, ha⟩ : ∃ x, busAction Config.chip i = some ⟨.layerRec, 2, x⟩ := by
    rcases hi with ⟨_, _, rfl, hv⟩ | ⟨x, rfl⟩
    · exact ⟨_, if_neg hv⟩
    · exact ⟨x, rfl⟩
  exact selectedLayerBecomes_of_action ha rfl rfl rfl

/-! ## The targeted Bank (41_actions R153) -/

/-- The Bank that a param targets is found, and clearing the press counter does not move it. -/
theorem bankTarget_of_targets {L : Layer} {p : Int} {b : Fin 4} (a : Action) (h : Targets L p b) :
    bankTarget (clearPresses a L) p = some b := by
  rcases h with ⟨rfl, rfl⟩ | rfl
  · rw [bankTarget_selected, clearPresses_selBank]
  · exact bankTarget_val _ b

theorem isBankParam_of_targets {L : Layer} {p : Int} {b : Fin 4} (h : Targets L p b) : isBankParam p = true := by
  rcases h with ⟨rfl, rfl⟩ | rfl
  · rfl
  · simp [isBankParam]

/-- A parameter setter is carried out on the targeted Bank. -/
theorem onTarget_of_targets {L : Layer} {p : Int} {b : Fin 4} (a : Action) (f : Params → Params) (h : Targets L p b) :
    onTarget p f (clearPresses a L) = (clearPresses a L).onParams b f := by
  rw [onTarget, bankTarget_of_targets a h]

/-! ## The Banks' controls -/

/-- Settles O36: OSC_SELECT of an index selects that Bank. -/
theorem oscSelectSelectsBank : Obligations.OscSelectSelectsBank := by
  intro i b s hi
  obtain ⟨x, ha⟩ : ∃ x, busAction Config.chip i = some ⟨.oscSelect, (b.val : Int), x⟩ := by
    rcases hi with ⟨_, _, _, rfl, hv, rfl⟩ | ⟨x, rfl⟩
    · exact ⟨_, if_neg hv⟩
    · exact ⟨x, rfl⟩
  refine selectedLayerBecomes_of_action ha (by simp [wellFormedAction]) rfl ?_
  simp [layerApply, layerOscSelect, clearPresses_of_not_recStop, isRecStop]

/-- Settles O37: OSC_MUTE toggles the flag of the targeted Bank. -/
theorem oscMuteTogglesMute : Obligations.OscMuteTogglesMute := by
  intro i b s hi
  obtain ⟨p, x, ha, hp⟩ : ∃ p x, busAction Config.chip i = some ⟨.oscMute, p, x⟩ ∧
      Targets (s.layer.get s.selLayer) p b := by
    rcases hi with ⟨_, _, _, rfl, hv, rfl⟩ | ⟨p, x, rfl, hp⟩
    · exact ⟨_, _, if_neg hv, Or.inr rfl⟩
    · exact ⟨p, x, rfl, hp⟩
  obtain ⟨t, ht, honly, hlayer⟩ : SelectedLayerBecomes i s
      (toggleMute b (clearPresses ⟨.oscMute, p, x⟩ (s.layer.get s.selLayer))) := by
    refine selectedLayerBecomes_of_action ha (isBankParam_of_targets hp) rfl ?_
    simp only [layerApply, layerMute, bankTarget_of_targets _ hp]
  refine ⟨t, ht, honly, ?_⟩
  rw [hlayer]
  refine ⟨rfl, ?_, fun k hk => ?_⟩
  · simp
  · simp [quad_get_set_ne _ _ _ _ hk]

/-- Settles O38: OSC_AMP sets the amplitude of the targeted Bank. -/
theorem oscAmpSetsBankAmplitude : Obligations.OscAmpSetsBankAmplitude := by
  intro i b x s hi
  obtain ⟨p, ha, hp⟩ : ∃ p, busAction Config.chip i = some ⟨.oscAmp, p, x⟩ ∧
      Targets (s.layer.get s.selLayer) p b := by
    rcases hi with ⟨_, _, _, rfl, rfl, rfl⟩ | ⟨p, rfl, hp⟩
    · exact ⟨_, rfl, Or.inr rfl⟩
    · exact ⟨p, rfl, hp⟩
  exact writesSelectedBank_of_action ha (isBankParam_of_targets hp) rfl rfl
    (congrArg Except.ok (onTarget_of_targets _ (setAmplitude x) hp)) rfl

/-- Settles O39: OSC_TYPE adds 1 to the waveform, modulo 4. -/
theorem oscTypeAdvancesWaveform : Obligations.OscTypeAdvancesWaveform := by
  intro i s hi
  obtain ⟨x, ha⟩ : ∃ x, busAction Config.chip i = some ⟨.oscType, -1, x⟩ := by
    rcases hi with ⟨_, _, rfl, hv⟩ | ⟨x, rfl⟩
    · exact ⟨_, if_neg hv⟩
    · exact ⟨x, rfl⟩
  exact writesSelectedBank_of_action (f := nextWaveform) ha rfl rfl rfl rfl ⟨rfl, Fin.val_add _ _⟩

/-- Settles O40: where the sum fits, OSC_OCTAVE stores it. -/
theorem oscOctaveMovesOctave : Obligations.OscOctaveMovesOctave := by
  intro i d s hi hfits
  obtain ⟨x, ha, hint, rfl⟩ : ∃ x, busAction Config.chip i = some ⟨.oscOctave, -1, x⟩ ∧
      Num64.isInteger x = true ∧ d = Num64.trunc x := by
    rcases hi with ⟨_, _, rfl, hv, rfl⟩ | ⟨_, _, rfl, hv, rfl⟩ | ⟨x, rfl, hint, rfl⟩
    · exact ⟨_, if_neg hv, Config.chip.num.minus_one_integer, by decide⟩
    · exact ⟨_, if_neg hv, Config.chip.num.one_integer, by decide⟩
    · exact ⟨x, rfl, hint, rfl⟩
  refine writesSelectedBank_of_action (f := fun P => { P with octave := _ }) ha (by simpa [wellFormedAction] using hint)
    rfl rfl (if_pos ?_) ⟨rfl, rfl⟩
  simpa using hfits

/-- Settles O41: OSC_PITCH replaces the steps of the targeted Bank. -/
theorem oscPitchReplacesSteps : Obligations.OscPitchReplacesSteps := by
  intro i b x s hi
  obtain ⟨p, ha, hp⟩ : ∃ p, busAction Config.chip i = some ⟨.oscPitch, p, x⟩ ∧
      Targets (s.layer.get s.selLayer) p b := by
    rcases hi with ⟨_, _, _, rfl, rfl, rfl⟩ | ⟨p, rfl, hp⟩
    · exact ⟨_, rfl, Or.inl ⟨rfl, rfl⟩⟩
    · exact ⟨p, rfl, hp⟩
  exact writesSelectedBank_of_action ha (isBankParam_of_targets hp) rfl rfl
    (congrArg Except.ok (onTarget_of_targets _ (setSteps x) hp)) ⟨rfl, rfl⟩

/-- Settles O42: MOD_SELECT of a target's number selects that target. -/
theorem modSelectSelectsTarget : Obligations.ModSelectSelectsTarget := by
  intro i m s hi
  obtain ⟨p, x, ha, hp⟩ : ∃ p x, busAction Config.chip i = some ⟨.modSelect, p, x⟩ ∧ modTargetOf p = some m := by
    rcases hi with ⟨_, _, hv, ⟨rfl, rfl⟩ | ⟨rfl, rfl⟩ | ⟨rfl, rfl⟩⟩ | ⟨x, ⟨rfl, rfl⟩ | ⟨rfl, rfl⟩ | ⟨rfl, rfl⟩⟩
    · exact ⟨0, _, if_neg hv, rfl⟩
    · exact ⟨1, _, if_neg hv, rfl⟩
    · exact ⟨2, _, if_neg hv, rfl⟩
    · exact ⟨0, x, rfl, rfl⟩
    · exact ⟨1, x, rfl, rfl⟩
    · exact ⟨2, x, rfl, rfl⟩
  refine writesSelectedBank_of_action (f := setModTarget m) ha (by simp [wellFormedAction, hp]) rfl rfl ?_ rfl
  simp [layerApply, layerModSelect, hp]

/-! ## The envelopes and the LFOs -/

/-- The field that ENVELOPE writes, and the ones it does not (41_actions R172). -/
theorem envField_setEnvelopeField (c : Config) (j k : Fin 4) (x : Num64) (e : Envelope) :
    envField (setEnvelopeField c j x e) k =
      if k = j then (if j = 2 then x else c.num.envTime x) else envField e k := by
  fin_cases j <;> fin_cases k <;> rfl

/-- ENVELOPE writes the envelope of the selected target alone (41_actions R172). -/
theorem envOf_setEnvelope (c : Config) (j : Fin 4) (x : Num64) (P : Params) (t : ModTarget) :
    envOf (setEnvelope c j x P) t = if t = P.modTarget then setEnvelopeField c j x (envOf P t) else envOf P t := by
  unfold setEnvelope
  cases hm : P.modTarget <;> cases t <;> rfl

theorem envelopeFieldBecomes_setEnvelope (c : Config) (j : Fin 4) (x : Num64) (P : Params) :
    EnvelopeFieldBecomes j (if j = 2 then x else c.num.envTime x) P (setEnvelope c j x P) where
  written := by rw [envOf_setEnvelope, if_pos rfl, envField_setEnvelopeField, if_pos rfl]
  kept t k h := by
    rw [envOf_setEnvelope]
    split
    · rename_i ht
      rw [envField_setEnvelopeField, if_neg (h.resolve_left (not_not.mpr ht))]
    · rfl
  rest := by
    unfold setEnvelope
    split <;> rfl

/-- Settles O43: ENVELOPE of a field's index, on the selected Bank. -/
theorem envelopeWritesOneField : Obligations.EnvelopeWritesOneField := by
  intro i j x s hi
  have ha : busAction Config.chip i = some ⟨.envelope, (j.val : Int), x⟩ := by
    rcases hi with ⟨_, _, _, rfl, rfl, rfl⟩ | rfl <;> rfl
  refine writesSelectedBank_of_action ha (by simp [wellFormedAction]) rfl rfl ?_
    (envelopeFieldBecomes_setEnvelope Config.chip j x _)
  simp [layerApply, layerEnvelope]

/-- LFO writes the one field of the selected target's LFO, and nothing for the filter (41_actions R173). -/
theorem lfoFieldBecomes_setLfo (speed : Bool) (x : Num64) (P : Params) : LfoFieldBecomes speed x P (setLfo speed x P) := by
  unfold setLfo
  refine ⟨fun hm => ?_, fun hm => ?_, fun hm => ?_⟩
  · cases speed <;> simp [hm, setLfoField]
  · cases speed <;> simp [hm, setLfoField]
  · simp [hm]

/-- Settles O44: LFO with param 0 writes the speed, with param 1 the amplitude. -/
theorem lfoWritesOneField : Obligations.LfoWritesOneField := by
  intro i speed x s hi
  obtain ⟨p, ha, hp, rfl⟩ : ∃ p, busAction Config.chip i = some ⟨.lfo, p, x⟩ ∧ (p = 0 ∨ p = 1) ∧
      speed = decide (p = 0) := by
    rcases hi with ⟨_, _, rfl, rfl, rfl⟩ | ⟨_, _, rfl, rfl, rfl⟩ | ⟨rfl, rfl⟩ | ⟨rfl, rfl⟩
    · exact ⟨0, rfl, Or.inl rfl, rfl⟩
    · exact ⟨1, rfl, Or.inr rfl, rfl⟩
    · exact ⟨0, rfl, Or.inl rfl, rfl⟩
    · exact ⟨1, rfl, Or.inr rfl, rfl⟩
  exact writesSelectedBank_of_action ha (decide_eq_true hp) rfl rfl rfl (lfoFieldBecomes_setLfo _ x _)

/-! ## The filter -/

/-- `clamp` is what the relation says (41_actions R174, 43_mixer R241). -/
theorem clampedTo_clamp (n : NumType) (lo hi x : Num64) : ClampedTo n lo hi x (n.clamp lo hi x) := by
  unfold NumType.clamp
  exact ⟨fun h => if_pos h, fun hlo hhi => by simp [hlo, hhi], fun hlo hhi => by simp [hlo, hhi]⟩

/-- The cutoff is clamped where its operand is no NaN (41_actions R174). -/
theorem clampedTo_clampCutoff (c : Config) (d : Nat) (x : Num64) (h : c.num.isNaN x = false) :
    ClampedTo c.num c.minCutoff c.maxCutoff x (clampCutoff c d x) := by
  rw [clampCutoff, if_neg (by simp [h])]
  exact clampedTo_clamp _ _ _ x

/-- Settles O45: the cutoff is the clamped product, or the free value of the interval. -/
theorem filterCutoffIsClamped : Obligations.FilterCutoffIsClamped := by
  intro i b x s hi
  obtain ⟨p, ha, hp⟩ : ∃ p, busAction Config.chip i = some ⟨.filterCutoff, p, x⟩ ∧
      Targets (s.layer.get s.selLayer) p b := by
    rcases hi with ⟨_, _, rfl, rfl, rfl⟩ | ⟨p, rfl, hp⟩
    · exact ⟨_, rfl, Or.inl ⟨rfl, rfl⟩⟩
    · exact ⟨p, rfl, hp⟩
  exact writesSelectedBank_of_action ha (isBankParam_of_targets hp) rfl rfl
    (congrArg Except.ok (onTarget_of_targets _ (setCutoff Config.chip s.freeDraws x) hp))
    ⟨rfl, clampedTo_clampCutoff Config.chip _ _, clampCutoff_bounds Config.chip _ _⟩

end Sys2Proof.Proofs

/-! The Recorder (42_recorder): each tick by the branch it takes, a loop through its passes, and the one fault of a buffer
transaction. -/

namespace Sys2Proof.Proofs

open Sys2Proof Sys2Proof.Machine Sys2Proof.Safety Sys2Proof.Laws

/-! ## The tick after its edges (42_recorder R203 to R206) -/

section Tick

variable {c : Config} {R : Recorder}

/-- After the same edges, the same tick. -/
theorem tick_congr_tickEdges {arm : Bool} {S : Recorder} (h : tickEdges arm R = tickEdges arm S) :
    tick c arm R = tick c arm S := by
  simp only [tick, h]

theorem tick_true_of_tsFits (hfits : c.tsFits ((tickEdges true R).timestamp + 1) = true) :
    tick c true R = .ok ({ tickEdges true R with timestamp := (tickEdges true R).timestamp + 1 }, none) := by
  simp [tick, (bumpTimestamp_ok c _ _).mpr ⟨hfits, rfl⟩]

theorem tick_idle_of_paused (harmed : R.armed = false) (hpaused : R.paused = true) : tick c false R = .ok (R, none) := by
  simp [tick, tickEdges_idle R harmed, hpaused]

theorem tick_idle_of_tsFits (harmed : R.armed = false) (hpaused : R.paused = false)
    (hfits : c.tsFits (R.timestamp + 1) = true) :
    tick c false R = .ok (playAt { R with timestamp := R.timestamp + 1 }) := by
  simp [tick, tickEdges_idle R harmed, hpaused, (bumpTimestamp_ok c _ _).mpr ⟨hfits, rfl⟩]

/-- The tick that arms (R201). -/
theorem tick_arms (harmed : R.armed = false) :
    tick c true R =
      .ok ({ timestamp := 1, loopLength := R.loopLength, events := [], armed := true, paused := false }, none) := by
  have hfits : c.tsFits ((tickEdges true R).timestamp + 1) = true := by
    rw [tickEdges_arm R harmed]
    exact tsFits_one c
  rw [tick_true_of_tsFits hfits, tickEdges_arm R harmed]

/-- A tick while armed (R204). -/
theorem tick_armed (harmed : R.armed = true) (hfits : c.tsFits (R.timestamp + 1) = true) :
    tick c true R = .ok ({ R with timestamp := R.timestamp + 1 }, none) := by
  have hedges := tickEdges_armed_armed R harmed
  rw [tick_true_of_tsFits (by rwa [hedges]), hedges]

/-- The tick that disarms is the first playback tick of the loop it freezes (R202). -/
theorem tick_disarms (harmed : R.armed = true) :
    tick c false R = tick c false { R with loopLength := R.timestamp, timestamp := 0, armed := false } := by
  refine tick_congr_tickEdges ?_
  rw [tickEdges_disarm R harmed, tickEdges_idle _ rfl]

end Tick

/-! ## Playback at a timestamp (42_recorder R205) -/

section PlayAt

variable {R : Recorder}

theorem playAt_event {a : Action} (hget : KMap.get R.events R.timestamp = some a) : playAt R = (R, some a) := by
  have hne : R.events ≠ [] := by
    intro hnil
    simp [hnil] at hget
  simp [playAt, hne, hget]

theorem playAt_restart (hne : R.events ≠ []) (hget : KMap.get R.events R.timestamp = none)
    (hend : R.loopLength ≤ R.timestamp) : playAt R = ({ R with timestamp := 0 }, none) := by
  simp [playAt, hne, hget, hend]

theorem playAt_silent (hget : KMap.get R.events R.timestamp = none) (hwithin : R.timestamp < R.loopLength) :
    playAt R = (R, none) := by
  simp [playAt, hget, not_le.mpr hwithin]

theorem playAt_empty (hnil : R.events = []) : playAt R = (R, none) := by
  simp [playAt, hnil]

end PlayAt

/-! ## The ticks one by one -/

/-- Settles O47: the edges of the first tick clear, those of a later one change nothing. -/
theorem recordingTickCounts : Obligations.RecordingTickCounts :=
  fun _ _ => ⟨tick_arms, tick_armed⟩

/-- Settles O48: the two Recorders are one after the edges, and no tick moves the frozen length. -/
theorem disarmTickFreezesLoop : Obligations.DisarmTickFreezesLoop := by
  intro c R harmed
  refine ⟨tick_disarms harmed, fun Q r h => ?_⟩
  obtain ⟨hQarmed, _, hQlength, _⟩ := tick_keeps c false R Q r h
  exact ⟨by rw [hQlength, tickEdges_disarm R harmed], hQarmed⟩

/-- Settles O49: an idle tick that is not paused plays at the next timestamp. -/
theorem playbackTickReplaysLoop : Obligations.PlaybackTickReplaysLoop := by
  intro c R harmed
  refine ⟨tick_idle_of_paused harmed, fun hpaused hfits => ?_⟩
  rw [tick_idle_of_tsFits harmed hpaused hfits]
  refine ⟨fun a hget => ?_, fun hne hget hend => ?_, fun _ hget hwithin => ?_, fun hnil => ?_⟩
  · exact congrArg Except.ok (playAt_event hget)
  · exact congrArg Except.ok (playAt_restart hne hget hend)
  · exact congrArg Except.ok (playAt_silent hget hwithin)
  · exact congrArg Except.ok (playAt_empty hnil)

/-- Playback of a loop whose events lie within it leaves the timestamp within it. -/
theorem playAt_timestamp_le {R : Recorder} (hne : R.events ≠ [])
    (hwithin : ∀ n a, KMap.get R.events n = some a → n ≤ R.loopLength) : (playAt R).1.timestamp ≤ R.loopLength := by
  rcases playAt_cases R with ⟨a, _, hget, hplay⟩ | ⟨_, _, _, hplay⟩ | ⟨_, _, hlt, hplay⟩ | ⟨hnil, _⟩
  · rw [hplay]
    exact hwithin _ a hget
  · rw [hplay]
    exact Nat.zero_le _
  · rw [hplay]
    exact hlt.le
  · exact absurd hnil hne

/-- Settles O50: of a tick that is answered, only the pause and the playback are open to an idle Recorder. -/
theorem playingTimestampStaysInLoop : Obligations.PlayingTimestampStaysInLoop := by
  intro c R Q r harmed hpaused hne hwithin hts h
  have hkeeps := tick_keeps c false R Q r h
  have hcases := tick_cases c false R Q r h
  rw [tickEdges_idle R harmed] at hkeeps hcases
  obtain ⟨hQarmed, hQevents, hQlength, hQpaused⟩ := hkeeps
  refine ⟨hQarmed, hQpaused.trans hpaused, hQevents, hQlength, ?_⟩
  rw [hQlength]
  rcases hcases with ⟨_, _, rfl, _⟩ | ⟨harm, _⟩ | ⟨_, _, _, hplay⟩
  · exact hts
  · cases harm
  · have hQ : Q = (playAt { R with timestamp := R.timestamp + 1 }).1 := congrArg Prod.fst hplay
    rw [hQ]
    exact playAt_timestamp_le hne hwithin

/-! ## Runs of ticks -/

section Runs

variable {c : Config} {R Q Z : Recorder} {k m : Nat}

theorem play_cons {r : Option Action} {rs : List (Option Action)} (hfirst : tick c false R = .ok (Q, r))
    (hrest : play c k Q = some (Z, rs)) : play c (k + 1) R = some (Z, r :: rs) := by
  simp only [play, hfirst, hrest]

theorem play_append {rs qs : List (Option Action)} (hfirst : play c m R = some (Q, rs))
    (hrest : play c k Q = some (Z, qs)) : play c (m + k) R = some (Z, rs ++ qs) := by
  induction m generalizing R rs with
  | zero =>
    cases hfirst
    simpa using hrest
  | succ m ih =>
    rw [Nat.succ_add]
    simp only [play] at hfirst
    split at hfirst
    · cases hfirst
    · rename_i htick
      split at hfirst
      · cases hfirst
      · rename_i hplay
        cases hfirst
        exact play_cons htick (ih hplay)

/-- A run depends on its Recorder through the first tick alone. -/
theorem play_succ_congr (h : tick c false R = tick c false Q) : play c (k + 1) R = play c (k + 1) Q := by
  simp only [play, h]

/-- An armed Recorder counts its ticks (R204). -/
theorem armedTicks_of_armed (harmed : R.armed = true) (hfits : c.tsFits (m + R.timestamp) = true) :
    armedTicks c m R = some { R with timestamp := m + R.timestamp } := by
  induction m generalizing R with
  | zero => simp [armedTicks]
  | succ m ih =>
    have hone : c.tsFits (R.timestamp + 1) = true := tsFits_mono c _ _ (by omega) hfits
    have hsum : m + 1 + R.timestamp = m + (R.timestamp + 1) := by omega
    simp only [armedTicks, tick_armed harmed hone]
    rw [hsum] at hfits ⊢
    exact ih harmed hfits

/-- A run of ticks that records from the first one on (R201, R204). -/
theorem armedTicks_arms (harmed : R.armed = false) (hfits : c.tsFits (m + 1) = true) :
    armedTicks c (m + 1) R =
      some { timestamp := m + 1, loopLength := R.loopLength, events := [], armed := true, paused := false } := by
  simp only [armedTicks, tick_arms harmed]
  exact armedTicks_of_armed rfl hfits

end Runs

/-! ## record, where the store has room (42_recorder R208) -/

theorem record_first {c : Config} {R : Recorder} (a : Action) (hnil : R.events = []) :
    record c a R = { R with timestamp := 1, events := [(1, a)] } := by
  simp [record, hnil, Config.maxRecording, KMap.put]

theorem record_next {c : Config} {R : Recorder} (a : Action) (hne : R.events ≠ [])
    (hroom : R.events.length < c.maxRecording) :
    record c a R = { R with events := KMap.put R.events R.timestamp a } := by
  simp [record, hne, hroom]

/-! ## The loop of two actions (42_recorder R214) -/

/-- The loop of `a` and, `n` ticks later, `b`, playing at the timestamp `t`. -/
def pairLoop (a b : Action) (n t : Nat) : Recorder where
  timestamp := t
  loopLength := n + 1
  events := KMap.put [(1, a)] (n + 1) b
  armed := false
  paused := false

section PairLoop

variable {c : Config} {a b : Action} {n t : Nat}

theorem pairLoop_get_first (hn : 1 ≤ n) : KMap.get (pairLoop a b n t).events 1 = some a := by
  rw [pairLoop, kmap_get_put_ne _ _ _ _ (by omega)]
  rfl

theorem pairLoop_get_last : KMap.get (pairLoop a b n t).events (n + 1) = some b :=
  kmap_get_put _ _ _

theorem pairLoop_get_other {k : Nat} (hfirst : k ≠ 1) (hlast : k ≠ n + 1) :
    KMap.get (pairLoop a b n t).events k = none := by
  rw [pairLoop, kmap_get_put_ne _ _ _ _ hlast]
  simp [KMap.get, hfirst.symm]

theorem pairLoop_events_ne_nil : (pairLoop a b n t).events ≠ [] := by
  intro hnil
  have hlast := pairLoop_get_last (a := a) (b := b) (n := n) (t := t)
  simp [hnil] at hlast

theorem tick_pairLoop (hfits : c.tsFits (t + 1) = true) :
    tick c false (pairLoop a b n t) = .ok (playAt (pairLoop a b n (t + 1))) :=
  tick_idle_of_tsFits rfl rfl hfits

theorem playAt_pairLoop_silent (hlow : 1 < t) (hhigh : t < n + 1) :
    playAt (pairLoop a b n t) = (pairLoop a b n t, none) :=
  playAt_silent (pairLoop_get_other hlow.ne' hhigh.ne) hhigh

theorem playAt_pairLoop_restart : playAt (pairLoop a b n (n + 2)) = (pairLoop a b n 0, none) :=
  playAt_restart pairLoop_events_ne_nil (pairLoop_get_other (k := n + 2) (by omega) (by omega)) (Nat.le_succ (n + 1))

/-- Between the two events nothing is returned. -/
theorem play_pairLoop_silent {m : Nat} (ht : 1 ≤ t) (hend : t + m ≤ n) (hfits : c.tsFits (n + 2) = true) :
    play c m (pairLoop a b n t) = some (pairLoop a b n (t + m), List.replicate m none) := by
  induction m generalizing t with
  | zero => rfl
  | succ m ih =>
    have htick : tick c false (pairLoop a b n t) = .ok (pairLoop a b n (t + 1), none) := by
      rw [tick_pairLoop (tsFits_mono c (t + 1) _ (by omega) hfits), playAt_pairLoop_silent (by omega) (by omega)]
    have hrest := play_cons htick (ih (by omega) (by omega))
    rwa [Nat.add_assoc, Nat.add_comm 1 m] at hrest

/-- A pass returns `a`, nothing up to `b`, `b`, nothing, and ends where it began. -/
theorem play_pairLoop_pass (hn : 1 ≤ n) (hfits : c.tsFits (n + 2) = true) :
    play c (n + 2) (pairLoop a b n 0) =
      some (pairLoop a b n 0, some a :: (List.replicate (n - 1) none ++ [some b, none])) := by
  have hfirst : tick c false (pairLoop a b n 0) = .ok (pairLoop a b n 1, some a) := by
    rw [tick_pairLoop (tsFits_one c), playAt_event (pairLoop_get_first hn)]
  have hsilent : play c (n - 1) (pairLoop a b n 1) = some (pairLoop a b n n, List.replicate (n - 1) none) := by
    have hrun := play_pairLoop_silent (a := a) (b := b) (t := 1) (m := n - 1) le_rfl (by omega) hfits
    rwa [Nat.add_sub_cancel' hn] at hrun
  have hlast : tick c false (pairLoop a b n n) = .ok (pairLoop a b n (n + 1), some b) := by
    rw [tick_pairLoop (tsFits_mono c _ _ (Nat.le_succ _) hfits), playAt_event pairLoop_get_last]
  have hrestart : tick c false (pairLoop a b n (n + 1)) = .ok (pairLoop a b n 0, none) := by
    rw [tick_pairLoop hfits, playAt_pairLoop_restart]
  have hpass := play_cons hfirst (play_append hsilent (play_cons hlast (play_cons (k := 0) hrestart rfl)))
  rwa [show n - 1 + (0 + 1 + 1) + 1 = n + 2 by omega] at hpass

end PairLoop

/-- Settles O51: the tick after the recording disarms into the loop's start, and a pass leads from the start to the start. -/
theorem recordedLoopReplays : Obligations.RecordedLoopReplays := by
  intro c R a b j n harmed hn hroom hj hfits
  have hcount : c.tsFits (n + 1) = true := tsFits_mono c _ _ (Nat.le_succ _) hfits
  have hpass := play_pairLoop_pass (a := a) (b := b) hn hfits
  refine ⟨_, { timestamp := n + 1, loopLength := R.loopLength, events := [(1, a)], armed := true, paused := false },
    pairLoop a b n 0, armedTicks_arms harmed hj, ?_, ?_, hpass, rfl⟩
  · rw [record_first a rfl]
    exact armedTicks_of_armed rfl hcount
  · rw [record_next b]
    · exact (play_succ_congr (tick_disarms rfl)).trans hpass
    · exact List.cons_ne_nil _ _
    · exact hroom

/-! ## The fault of a buffer transaction (42_recorder R212) -/

/-- The edges that arm and disarm restart the counter, so a tick faults only where they do nothing, and the Recorder is not
paused while idle (R201, R202, R212). -/
theorem tick_error_iff (c : Config) (arm : Bool) (R : Recorder) (f : Fault) :
    tick c arm R = .error f ↔
      f = .timestampOverflow ∧ arm = R.armed ∧ (arm = false → R.paused = false) ∧ c.tsFits (R.timestamp + 1) = false := by
  rw [tick_error]
  cases arm <;> cases harmed : R.armed
  · rw [tickEdges_idle R harmed]
    simp [and_comm]
  · simp [tickEdges_disarm R harmed, tsFits_one]
  · simp [tickEdges_arm R harmed, tsFits_one]
  · simp [tickEdges_armed_armed R harmed]

/-- The four Layers fault exactly where one of them does: the one fault there is hides no other (43_mixer R240). -/
theorem layersNextBuffer_error_iff (c : Config) (d : Nat) (q : Quad Layer) (f : Fault)
    (hinv : ∀ l, LayerInv c (q.get l)) :
    layersNextBuffer c d q = .error f ↔ ∃ l, tick c (q.get l).recording (q.get l).recorder = .error f := by
  have hlayer (l : Fin 4) (g : Fault) : layerNextBuffer c d (q.get l) = .error g ↔
      tick c (q.get l).recording (q.get l).recorder = .error g :=
    (layerNextBuffer_error c d _ g).trans (layerTick_error c d _ g (hinv l))
  constructor
  · intro h
    obtain ⟨l, hl⟩ := layersNextBuffer_error c d q f h
    exact ⟨l, (hlayer l f).mp hl⟩
  · rintro ⟨l, hl⟩
    cases hq : layersNextBuffer c d q with
    | ok p =>
      obtain ⟨y, hy, _⟩ := layersNextBuffer_ok c d q p.1 p.2 hq
      cases (hy l).symm.trans ((hlayer l f).mpr hl)
    | error g =>
      obtain ⟨k, hk⟩ := layersNextBuffer_error c d q g hq
      have hg := ((tick_error c _ _ g).mp ((hlayer k g).mp hk)).1
      have hf := ((tick_error c _ _ f).mp hl).1
      rw [hg, hf]

/-- A buffer transaction faults exactly where its Layers' steps do (43_mixer R240). -/
theorem synthNextBuffer_fault (c : Config) (s : State) (f : Fault) :
    synthNextBuffer c s = .fault f ↔ layersNextBuffer c s.freeDraws s.layer = .error f := by
  unfold synthNextBuffer
  cases layersNextBuffer c s.freeDraws s.layer <;> simp

/-- Settles O20: the fault of the Layers' ticks, each by its Recorder. -/
theorem bufferFaultsExactlyOnOverflow : Obligations.BufferFaultsExactlyOnOverflow := by
  intro s f hinv
  have hlayers := (synthNextBuffer_fault Config.chip s f).trans (layersNextBuffer_error_iff _ _ _ f hinv)
  simp only [tick_error_iff, exists_and_left] at hlayers
  exact hlayers

end Sys2Proof.Proofs

/-! The Mixer (43_mixer): what a buffer transaction does to each voice, Bank and Layer, that it completes, and what it
answers. -/

namespace Sys2Proof.Proofs

open Sys2Proof Sys2Proof.Machine Sys2Proof.Safety Sys2Proof.Laws

/-! ## The prune and the silence guard (43_mixer R231, R232) -/

section Bank

variable {c : Config} {B : Bank} {s : Fin 25} {v : Voice}

@[simp] theorem bankPrune_params (B : Bank) : (bankPrune B).params = B.params := rfl

theorem bankPrune_get_of_empty (h : B.slots.get s = none) : (bankPrune B).slots.get s = none := by
  rw [bankPrune_slot, h]

theorem bankPrune_get_of_done (h : B.slots.get s = some v) (hdone : v.done = true) :
    (bankPrune B).slots.get s = none := by
  rw [bankPrune_slot, h]
  exact if_pos hdone

theorem bankPrune_get_of_not_done (h : B.slots.get s = some v) (hdone : v.done = false) :
    (bankPrune B).slots.get s = some v := by
  rw [bankPrune_slot, h]
  exact if_neg (Bool.eq_false_iff.mp hdone)

theorem bankSilent_iff (c : Config) (B : Bank) :
    bankSilent c B = true ↔ voiceCount B = 0 ∨ c.num.isZero B.params.envAmp.sustain = true := by
  simp [bankSilent]

/-- A Bank with a voice and an amp sustain is not silent. -/
theorem bankSilent_of_voice (h : B.slots.get s = some v) (hsustain : c.num.isZero B.params.envAmp.sustain = false) :
    bankSilent c B = false := by
  have hcount : voiceCount B ≠ 0 := (List.length_pos_of_mem (mem_voicesOf _ s v h)).ne'
  simp [bankSilent, hcount, hsustain]

/-- What the buffer step leaves in a slot, by the silence guard after the prune (43_mixer R232, R233). -/
theorem bankNextBuffer_slot (c : Config) (B : Bank) (s : Fin 25) :
    (bankNextBuffer c B).1.slots.get s =
      if bankSilent c (bankPrune B) then (bankPrune B).slots.get s
      else ((bankPrune B).slots.get s).map (advanceVoice c B.params) := by
  unfold bankNextBuffer bankMix
  split
  · rfl
  · exact slotsMap_get _ _ s

/-- What the buffer step puts out, by the silence guard after the prune (43_mixer R232, R234). -/
theorem bankNextBuffer_buffer (c : Config) (B : Bank) :
    (bankNextBuffer c B).2 =
      if bankSilent c (bankPrune B) then zeros c
      else scaleBuf c (sumBufs c ((voicesOf (bankPrune B).slots).map fun v => (callKernel c B.params v).buf))
        (bankWeight c (bankPrune B)) := by
  unfold bankNextBuffer bankMix
  split <;> rfl

/-- A slot without a voice after the prune has none after the step. -/
theorem bankNextBuffer_slot_of_empty (h : (bankPrune B).slots.get s = none) :
    (bankNextBuffer c B).1.slots.get s = none := by
  simp [bankNextBuffer_slot, h]

end Bank

/-- Settles O54: the prune decides an empty or done slot, the silence guard every other. -/
theorem bankBufferAdvancesVoices : Obligations.BankBufferAdvancesVoices := by
  intro c B s
  obtain ⟨hparams, hmap⟩ := bankNextBuffer_keeps c B
  refine ⟨hparams, hmap, fun hnone => bankNextBuffer_slot_of_empty (bankPrune_get_of_empty hnone), fun v hv => ?_⟩
  refine ⟨fun hdone => bankNextBuffer_slot_of_empty (bankPrune_get_of_done hv hdone), fun hdone hzero => ?_,
    fun hdone hsustain => ?_⟩
  · have hsilent : bankSilent c (bankPrune B) = true := (bankSilent_iff c _).mpr (Or.inr hzero)
    rw [bankNextBuffer_slot, if_pos hsilent, bankPrune_get_of_not_done hv hdone]
  · have hpruned := bankPrune_get_of_not_done hv hdone
    rw [bankNextBuffer_slot, bankSilent_of_voice hpruned hsustain, hpruned]
    simp [advanceVoice, callKernel, hdone]

/-! ## The weighted sums (43_mixer R230, R234, R238) -/

/-- The sample of a sum of buffers is the left fold of their samples (43_mixer R230). -/
theorem foldl_addBuf_apply {α : Type} (c : Config) (f : α → Buffer) (l : List α) (A : Buffer) (k : Nat) :
    (l.map f).foldl (addBuf c) A k = l.foldl (fun acc x => c.num.add acc (f x k)) (A k) := by
  induction l generalizing A with
  | nil => rfl
  | cons x l ih => exact ih (addBuf c A (f x))

theorem allMuted_iff (L : Layer) : allMuted L = true ↔ ∀ b, L.mute.get b = true := by
  simp [allMuted, Fin.forall_fin_succ, and_assoc]

theorem bankNextBuffer_buffer_of_silent {c : Config} {B : Bank} (h : bankSilent c (bankPrune B) = true) :
    (bankNextBuffer c B).2 = zeros c := by
  rw [bankNextBuffer_buffer, if_pos h]

/-- What a Layer puts out: zeros where all Banks are muted, else their weighted sum (43_mixer R237, R238). -/
theorem layerMix_buffer (c : Config) (L : Layer) :
    (layerMix c L).2 =
      if allMuted L then zeros c
      else scaleBuf c (sumBufs c [(bankNextBuffer c (L.bank.get 0)).2, (bankNextBuffer c (L.bank.get 1)).2,
        (bankNextBuffer c (L.bank.get 2)).2, (bankNextBuffer c (L.bank.get 3)).2]) (layerWeight c L) := rfl

/-- Settles O55: a Bank by its silence guard, a Layer by its mutes. -/
theorem mixIsWeighted : Obligations.MixIsWeighted := by
  refine ⟨fun c B k => ⟨fun hsilent => ?_, fun hcount hsustain => ?_⟩, fun c L k => ⟨fun hmuted => ?_, ?_⟩⟩
  · rw [bankNextBuffer_buffer_of_silent ((bankSilent_iff c _).mpr hsilent)]
    rfl
  · have hsound : ¬ bankSilent c (bankPrune B) = true := by simp [bankSilent_iff, hcount, hsustain]
    rw [bankNextBuffer_buffer, if_neg hsound]
    exact congrArg (c.num.mul · _) (foldl_addBuf_apply c _ _ _ k)
  · rw [layerMix_buffer, if_pos ((allMuted_iff L).mpr hmuted)]
    rfl
  · rintro ⟨b, hb⟩
    have hheard : ¬ allMuted L = true := fun hall => by simpa [hb] using (allMuted_iff L).mp hall b
    rw [layerMix_buffer, if_neg hheard]
    rfl

/-! ## The clamp of a sample (43_mixer R241) -/

theorem clampSample_of_notNaN {c : Config} {x : Num64} (d k : Nat) (h : c.num.isNaN x = false) :
    clampSample c d k x = c.num.clamp c.num.negOne c.num.one x := if_neg (Bool.eq_false_iff.mp h)

/-- A clamped sample lies in `[-1, 1]`, whatever it was (93 X17). -/
theorem clampSample_bounds (c : Config) (d k : Nat) (x : Num64) :
    c.num.le c.num.negOne (clampSample c d k x) = true ∧ c.num.le (clampSample c d k x) c.num.one = true := by
  cases hx : c.num.isNaN x with
  | true =>
    rw [clampSample, if_pos hx]
    exact nanSample_bounds c d k
  | false =>
    rw [clampSample_of_notNaN d k hx]
    exact clamp_bounds _ _ _ _ c.num.minus_one_lt_one hx

/-- Settles O56: the clamp of a sample that is no NaN, and the free value's interval. -/
theorem samplesAreClamped : Obligations.SamplesAreClamped := fun c d k x =>
  ⟨fun hx => clampSample_of_notNaN d k hx ▸ clampedTo_clamp _ _ _ x, clampSample_bounds c d k x⟩

/-! ## A Layer's tick (43_mixer R236) -/

theorem bankAdd_params (c : Config) (off : Int) (vel : Num64) (B : Bank) : (bankAdd c off vel B).params = B.params := by
  rcases bankAdd_cases c off vel B with ⟨_, he⟩ | ⟨_, _, he⟩ | ⟨_, _, _, _, he⟩ <;> rw [he]

theorem bankRemove_params (c : Config) (k : Int) (B : Bank) : (bankRemove c k B).params = B.params := by
  rcases bankRemove_cases c k B with ⟨_, he⟩ | ⟨_, _, he⟩ <;> rw [he]

/-- The Banks of `M` are those of `L` after the note of an action: ADD_NOTE in the unmuted ones, REMOVE_NOTE in all
(41_actions R152, R161, R162). -/
def NoteReachesBanks (c : Config) (a : Action) (L M : Layer) : Prop :=
  (a.code = .addNote ∧ ∀ b, M.bank.get b =
    if L.mute.get b then L.bank.get b else bankAdd c a.param a.value (L.bank.get b)) ∨
  (a.code = .removeNote ∧ ∀ b, M.bank.get b = bankRemove c a.param (L.bank.get b))

/-- What the replay of a note action does in a Layer: the press counter is cleared, the Recorder stays, and the note reaches
the Banks (41_actions R151, R161 to R163). -/
theorem layerApply_replay {c : Config} {d : Nat} {a : Action} {L M : Layer} (hnote : isNoteAction a = true)
    (h : layerApply c d a false L = .ok M) :
    M.presses = false ∧ M.recorder = L.recorder ∧ NoteReachesBanks c a L M := by
  have hpress := layerApply_presses c d a false L M h
  rw [layerApply_note c d a false L hnote] at h
  obtain rfl := Except.ok.inj h
  have hcode : a.code = .addNote ∨ a.code = .removeNote := by simpa [isNoteAction] using hnote
  rcases hcode with hc | hc
  · obtain ⟨q, hq, hget⟩ := layerAddNote_banks c a false (clearPresses a L)
    rw [if_pos hc, hq, capture_eq] at hpress ⊢
    refine ⟨by simpa [isRecStop, hc] using hpress, by simp, Or.inl ⟨hc, fun b => ?_⟩⟩
    simpa [addUnlessMuted] using hget b
  · rw [if_neg (by simp [hc]), layerRemoveNote, capture_eq] at hpress ⊢
    exact ⟨by simpa [isRecStop, hc] using hpress, by simp, Or.inr ⟨hc, fun b => by simp⟩⟩

/-- Everything a Layer's tick that is answered has done to its Recorder, its Banks and its press counter. -/
theorem layerTick_steps {c : Config} {d : Nat} {L M : Layer} (hL : LayerInv c L) (h : layerTick c d L = .ok M) :
    ∃ r, tick c L.recording L.recorder = .ok (M.recorder, r) ∧
      (r = none → M.presses = L.presses ∧ M.bank = L.bank) ∧
      ∀ a, r = some a → M.presses = false ∧ NoteReachesBanks c a L M := by
  obtain ⟨R, r, htick, ⟨rfl, rfl⟩ | ⟨a, rfl, hnote, _, happly⟩⟩ := layerTick_cases c d L M hL h
  · exact ⟨none, htick, fun _ => ⟨rfl, rfl⟩, fun a ha => nomatch ha⟩
  · obtain ⟨hpress, hrecorder, hbanks⟩ := layerApply_replay hnote happly
    refine ⟨some a, hrecorder ▸ htick, fun hr => (nomatch hr), ?_⟩
    rintro _ ⟨⟩
    exact ⟨hpress, hbanks⟩

/-- A Layer's tick leaves every Bank's parameters: a note writes none. -/
theorem layerTick_params {c : Config} {d : Nat} {L M : Layer} (hL : LayerInv c L) (h : layerTick c d L = .ok M)
    (b : Fin 4) : (M.bank.get b).params = (L.bank.get b).params := by
  obtain ⟨r, _, hnone, hsome⟩ := layerTick_steps hL h
  cases r with
  | none => rw [(hnone rfl).2]
  | some a =>
    rcases (hsome a rfl).2 with ⟨_, hbank⟩ | ⟨_, hbank⟩
    · rw [hbank b]
      split
      · rfl
      · exact bankAdd_params _ _ _ _
    · rw [hbank b, bankRemove_params]

/-! ## The buffer transaction (43_mixer R240) -/

/-- Settles O53: each Layer's tick, whose Banks then take their buffer step in the mix. -/
theorem bufferStepsEveryLayer : Obligations.BufferStepsEveryLayer := by
  intro s t hs h l
  obtain ⟨q, out, rfl, hq⟩ := execBuf_layers s t h
  obtain ⟨M, htick, hmix⟩ := hq l
  obtain ⟨r, hr, hnone, hsome⟩ := layerTick_steps (hs l) htick
  have hbank (b : Fin 4) : (q.get l).bank.get b = (bankNextBuffer Config.chip (M.bank.get b)).1 := by
    rw [hmix, layerMix_get]
  have hpress : (q.get l).presses = M.presses := by rw [hmix, layerMix_keeps]
  have hrecorder : (q.get l).recorder = M.recorder := by rw [hmix, layerMix_keeps]
  dsimp only
  simp only [hbank, hpress, hrecorder]
  refine ⟨r, hr, (tick_keeps _ _ _ _ _ hr).1, fun hn => ?_, fun a ha => ?_⟩
  · obtain ⟨hpresses, hbanks⟩ := hnone hn
    exact ⟨hpresses, fun b => by rw [hbanks]⟩
  · obtain ⟨hpresses, hbanks⟩ := hsome a ha
    exact ⟨hpresses, Or.imp (And.imp_right fun hb b => by rw [hb b]) (And.imp_right fun hb b => by rw [hb b]) hbanks⟩

/-- A buffer transaction completes where every Recorder's counter has room (42_recorder R212). -/
theorem execBuf_completes (s : State) (hs : StateInv Config.chip s)
    (hroom : ∀ l, Config.chip.tsFits ((s.layer.get l).recorder.timestamp + 1) = true) : ∃ t, exec .buf s = .next t := by
  cases hq : layersNextBuffer Config.chip s.freeDraws s.layer with
  | ok p => exact ⟨_, by rw [show exec .buf s = synthNextBuffer Config.chip s from rfl, synthNextBuffer, hq]⟩
  | error f =>
    obtain ⟨l, hl⟩ := (layersNextBuffer_error_iff _ _ _ f hs).mp hq
    obtain ⟨_, _, _, hfull⟩ := (tick_error_iff _ _ _ _).mp hl
    simp [hroom l] at hfull

/-- A buffer transaction that is answered keeps every register that no rule of it writes. -/
theorem execBuf_keeps (s t : State) (hs : StateInv Config.chip s) (h : exec .buf s = .next t) : BufferKeeps s t := by
  have hcontrols := execBuf_sameControls s t hs h
  obtain ⟨q, out, rfl, hq⟩ := execBuf_layers s t h
  refine ⟨rfl, rfl, rfl, rfl, rfl, rfl, rfl, hcontrols, fun l b => ?_⟩
  obtain ⟨M, htick, hmix⟩ := hq l
  dsimp only
  rw [hmix, layerMix_get, (bankNextBuffer_keeps _ _).1, layerTick_params (hs l) htick]

theorem execBuf_audioOut_length (s t : State) (h : exec .buf s = .next t) :
    t.audioOut.length = 2 * Config.chip.bufferSamples := by
  obtain ⟨q, x, _, rfl⟩ := execBuf_next s t h
  exact outputBytes_length _ _ _

/-- Settles O52: a counter with room does not fault, and what is answered keeps the rest. -/
theorem bufferCompletes : Obligations.BufferCompletes := by
  intro s hs hroom
  obtain ⟨t, ht⟩ := execBuf_completes s hs hroom
  exact ⟨t, ht, execBuf_keeps s t hs ht, execBuf_audioOut_length s t ht⟩

/-- Settles O59: a Layer's tick and mix read that Layer and the counter of free values only. -/
theorem layersStepIndependently : Obligations.LayersStepIndependently := by
  intro s t u v l hdraws hlayer hs hu
  obtain ⟨q, _, rfl, hq⟩ := execBuf_layers s t hs
  obtain ⟨p, _, rfl, hp⟩ := execBuf_layers u v hu
  obtain ⟨M, hM, hqM⟩ := hq l
  obtain ⟨N, hN, hpN⟩ := hp l
  rw [hdraws, hlayer] at hM
  obtain rfl := Except.ok.inj (hM.symm.trans hN)
  exact hqM.trans hpN.symm

end Sys2Proof.Proofs

/-! The answer of a buffer transaction (43_mixer R241, R242, R244): the reference PCM_QUANT stays within 16 bits, silence is
exact, and the bytes stand in sample order. -/

namespace Sys2Proof.Proofs

open Sys2Proof Sys2Proof.Machine Sys2Proof.Safety Sys2Proof.Laws

/-! ## Bounds of a binary64 word: the word of `g / 2^a`, with `2^52 ≤ g < 2^53`, is `(1074 - a) * 2^52 + g` -/

theorem mul_two_pow_le {m g a n : Nat} (hm : m ≤ g) (ha : a ≤ n) : m * 2 ^ a ≤ g * 2 ^ n :=
  Nat.mul_le_mul hm (Nat.pow_le_pow_right two_pos ha)

/-- A word no greater in magnitude than that of `g / 2^a` stands for a value no greater in magnitude. -/
theorem val_of_mag_le {x : Num64} {a g : Nat} (ha : a < 1075) (hg : 2 ^ 52 ≤ g) (hg' : g < 2 ^ 53)
    (h : Num64.mag x ≤ (1074 - a) * 2 ^ 52 + g) :
    ∃ m n : Nat, Num64.val x = .fin (Num64.neg x) m (-n) ∧ m * 2 ^ a ≤ g * 2 ^ n := by
  set e := Num64.mag x / 2 ^ 52 with he
  set f := Num64.mag x % 2 ^ 52 with hf
  have hsplit : 2 ^ 52 * e + f = Num64.mag x := Nat.div_add_mod _ _
  have hf_lt : f < 2 ^ 52 := Nat.mod_lt _ (by norm_num)
  have he_lt : e ≤ 1075 - a := by omega
  unfold Num64.val
  simp only [← he, ← hf]
  rw [if_neg (show e ≠ 2047 by omega)]
  by_cases he0 : e = 0
  · refine ⟨f, 1074, by rw [if_pos he0]; rfl, mul_two_pow_le (by omega) (by omega)⟩
  · refine ⟨2 ^ 52 + f, 1075 - e, ?_, ?_⟩
    · rw [if_neg he0, show (e : Int) - 1075 = -((1075 - e : Nat) : Int) by omega]
    · by_cases hea : e = 1075 - a
      · exact mul_two_pow_le (by omega) (by omega)
      · calc (2 ^ 52 + f) * 2 ^ a ≤ 2 * g * 2 ^ a := Nat.mul_le_mul_right _ (by omega)
          _ = g * 2 ^ (a + 1) := by ring
          _ ≤ g * 2 ^ (1075 - e) := mul_two_pow_le le_rfl (by omega)

/-- Rounding to whole numbers does not pass a whole number. -/
theorem roundShift_le {m k n : Nat} (h : m ≤ n * pow2 k) : Num64.roundShift m k ≤ n := by
  have hdiv : m / pow2 k ≤ n := Nat.div_le_of_le_mul (by rwa [mul_comm] at h)
  have hsplit := Nat.div_add_mod m (pow2 k)
  have hpos := pow2_pos k
  unfold Num64.roundShift
  dsimp only
  split
  next hup =>
    refine Nat.succ_le_of_lt (lt_of_le_of_ne hdiv fun heq => ?_)
    rw [heq, mul_comm] at hsplit
    omega
  next => exact hdiv

/-- The significand that `m / 2^k` is rounded to, in units of `2^-u`, does not pass a whole number of units. -/
theorem significand_le {m k u n : Nat} (h : m * 2 ^ u ≤ n * 2 ^ k) :
    (if (-u : Int) ≤ -k then m * pow2 (-k - -u : Int).toNat else Num64.roundShift m (-u - -k : Int).toNat) ≤ n := by
  split
  next hku =>
    rw [show (-k - -u : Int).toNat = u - k by omega, pow2_eq]
    refine Nat.le_of_mul_le_mul_right ?_ (Nat.two_pow_pos k)
    rwa [mul_assoc, ← pow_add, Nat.sub_add_cancel (by omega)]
  next hku =>
    rw [show (-u - -k : Int).toNat = k - u by omega]
    refine roundShift_le (Nat.le_of_mul_le_mul_right ?_ (Nat.two_pow_pos u))
    rwa [pow2_eq, mul_assoc, ← pow_add, Nat.sub_add_cancel (by omega)]

/-- The magnitude of a signed word. -/
theorem mag_ofNat_signed (b : Bool) {n : Nat} (h : n < 2 ^ 63) :
    Num64.mag (BitVec.ofNat 64 ((if b then 2 ^ 63 else 0) + n)) = n := by
  unfold Num64.mag
  rw [BitVec.toNat_ofNat]
  cases b <;> simp <;> omega

/-- Rounding to binary64 does not pass the word of `g / 2^a`. -/
theorem mag_round_le (b : Bool) {m k a g : Nat} (ha : a < 1075) (hg : 2 ^ 52 ≤ g) (hg' : g < 2 ^ 53)
    (h : m * 2 ^ a ≤ g * 2 ^ k) : Num64.mag (Num64.round b m (-k)) ≤ (1074 - a) * 2 ^ 52 + g := by
  by_cases hm : m = 0
  · rw [hm, show Num64.round b 0 (-k) = Num64.zeroOf b from if_pos rfl]
    have hzero : Num64.mag (Num64.zeroOf b) = 0 := by cases b <;> decide
    omega
  have hlow : 2 ^ Nat.log2 m ≤ m := Nat.log2_self_le hm
  have hhigh : m < 2 ^ (Nat.log2 m + 1) := Nat.lt_log2_self
  have hlog : Nat.log2 m + a < 53 + k := by
    refine (Nat.pow_lt_pow_iff_right (a := 2) (by norm_num)).mp ?_
    calc 2 ^ (Nat.log2 m + a) ≤ m * 2 ^ a := by rw [pow_add]; exact Nat.mul_le_mul_right _ hlow
      _ ≤ g * 2 ^ k := h
      _ < 2 ^ (53 + k) := by rw [pow_add]; exact Nat.mul_lt_mul_of_pos_right hg' (Nat.two_pow_pos k)
  obtain ⟨u, hu⟩ : ∃ u : Nat, u = min (k + 52 - Nat.log2 m) 1074 := ⟨_, rfl⟩
  have ht : max ((Nat.log2 m : Int) + -k - 52) (-1074) = -u := by omega
  unfold Num64.round
  rw [if_neg hm]
  dsimp only
  rw [ht]
  generalize hq : (if (-u : Int) ≤ -k then m * pow2 (-k - -u : Int).toNat
    else Num64.roundShift m (-u - -k : Int).toNat) = q
  have hbits : (-u + 1074 : Int).toNat * 2 ^ 52 + q ≤ (1074 - a) * 2 ^ 52 + g := by
    by_cases hua : u = a
    · have hqg : q ≤ g := hq ▸ significand_le (by rwa [hua])
      omega
    · have hq53 : q ≤ 2 ^ 53 := by
        refine hq ▸ significand_le ?_
        calc m * 2 ^ u ≤ 2 ^ (Nat.log2 m + 1) * 2 ^ u := Nat.mul_le_mul_right _ hhigh.le
          _ = 2 ^ (Nat.log2 m + 1 + u) := (pow_add _ _ _).symm
          _ ≤ 2 ^ (53 + k) := Nat.pow_le_pow_right (by norm_num) (by omega)
          _ = 2 ^ 53 * 2 ^ k := pow_add _ _ _
      omega
  rw [if_neg (by omega), mag_ofNat_signed b (by omega)]
  exact hbits

/-! ## The reference PCM_QUANT (43_mixer R242, log 4) -/

/-- A word in `[-1, 1]` is no greater in magnitude than that of 1. -/
theorem mag_le_of_clamped {y : Num64} (hlow : Num64.le Num64.negOne y = true) (hhigh : Num64.le y Num64.one = true) :
    Num64.mag y ≤ (1074 - 52) * 2 ^ 52 + 2 ^ 52 := by
  have hone : Num64.key Num64.one = 0x3FF0000000000000 := by decide
  have hnegOne : Num64.key Num64.negOne = -0x3FF0000000000000 := by decide
  simp only [Num64.le, Bool.and_eq_true, decide_eq_true_eq, hone, hnegOne] at hlow hhigh
  obtain ⟨-, hlow⟩ := hlow
  obtain ⟨-, hhigh⟩ := hhigh
  unfold Num64.key at hlow hhigh
  cases hneg : Num64.neg y <;> simp [hneg] at hlow hhigh <;> omega

/-- The product of a word in `[-1, 1]` with 32767 is no greater in magnitude than 32767. -/
theorem mag_mul_le {y : Num64} (h : Num64.mag y ≤ (1074 - 52) * 2 ^ 52 + 2 ^ 52) :
    Num64.mag (Num64.mul y (Num64.ofInt 32767)) ≤ (1074 - 38) * 2 ^ 52 + 32767 * 2 ^ 38 := by
  obtain ⟨m, n, hval, hm⟩ := val_of_mag_le (by norm_num) (by norm_num) (by norm_num) h
  have hscale : Num64.val (Num64.ofInt 32767) = .fin false (32767 * 2 ^ 38) (-38) := by decide
  have hm : m ≤ 2 ^ n := by omega
  rw [Num64.mul, hval, hscale]
  dsimp only
  rw [show (-n + -38 : Int) = -((n + 38 : Nat) : Int) by omega]
  refine mag_round_le _ (by norm_num) (by norm_num) (by norm_num) ?_
  calc m * (32767 * 2 ^ 38) * 2 ^ 38 ≤ 2 ^ n * (32767 * 2 ^ 38) * 2 ^ 38 := by gcongr
    _ = 32767 * 2 ^ 38 * 2 ^ (n + 38) := by ring

/-- A value no greater in magnitude than 32767 is truncated to an integer no greater in magnitude. -/
theorem trunc_bounds {x : Num64} (h : Num64.mag x ≤ (1074 - 38) * 2 ^ 52 + 32767 * 2 ^ 38) :
    -32767 ≤ Num64.trunc x ∧ Num64.trunc x ≤ 32767 := by
  obtain ⟨m, n, hval, hm⟩ := val_of_mag_le (by norm_num) (by norm_num) (by norm_num) h
  have hm : m ≤ 32767 * 2 ^ n := by omega
  have hdiv : (if 0 ≤ (-n : Int) then m * pow2 (-n : Int).toNat else m / pow2 (- -n : Int).toNat) ≤ 32767 := by
    split
    next hn =>
      obtain rfl : n = 0 := by omega
      simpa [pow2] using hm
    next hn =>
      rw [neg_neg, Int.toNat_natCast, pow2_eq]
      exact Nat.div_le_of_le_mul (by rwa [mul_comm] at hm)
  rw [Num64.trunc, hval]
  dsimp only
  unfold Num64.signed
  split <;> omega

/-- The code of a clamped sample is no greater in magnitude than 32767. -/
theorem pcmReference_bounds {y : Num64} (hlow : Num64.le Num64.negOne y = true) (hhigh : Num64.le y Num64.one = true) :
    -32767 ≤ (pcmReference NumType.binary64 y).toInt ∧ (pcmReference NumType.binary64 y).toInt ≤ 32767 := by
  have htrunc := trunc_bounds (mag_mul_le (mag_le_of_clamped hlow hhigh))
  unfold pcmReference
  simp only [binary64_trunc, binary64_mul, binary64_ofInt]
  rw [BitVec.toInt_ofInt_eq_self (by norm_num) (by omega) (by omega)]
  exact htrunc

/-! ## The bytes (43_mixer R242, 20_memory R80) -/

/-- A list written two entries an index holds them at twice the index. -/
theorem getElem?_flatMap_pair {α : Type} (f g : Nat → α) {n k : Nat} (h : k < n) :
    ((List.range n).flatMap fun i => [f i, g i])[2 * k]? = some (f k) ∧
    ((List.range n).flatMap fun i => [f i, g i])[2 * k + 1]? = some (g k) := by
  induction n with
  | zero => exact absurd h (Nat.not_lt_zero k)
  | succ n ih =>
    have hlen : ((List.range n).flatMap fun i => [f i, g i]).length = 2 * n := by simp [mul_comm]
    rw [List.range_succ, List.flatMap_append]
    rcases Nat.lt_succ_iff_lt_or_eq.mp h with hk | rfl
    · rw [List.getElem?_append_left (by omega), List.getElem?_append_left (by omega)]
      exact ih hk
    · rw [List.getElem?_append_right (by omega), List.getElem?_append_right (by omega), hlen]
      simp

/-- The bytes of a sample in the answer. -/
theorem outputBytes_getElem? (c : Config) (d : Nat) (y : Buffer) {k : Nat} (h : k < c.bufferSamples) :
    (outputBytes c d y)[2 * k]? = some ((outputSample c d y k).extractLsb' 0 8) ∧
    (outputBytes c d y)[2 * k + 1]? = some ((outputSample c d y k).extractLsb' 8 8) :=
  getElem?_flatMap_pair (fun i => (outputSample c d y i).extractLsb' 0 8)
    (fun i => (outputSample c d y i).extractLsb' 8 8) h

/-- The code of a sample the block puts out is no greater in magnitude than 32767. -/
theorem outputSample_bounds (d : Nat) (y : Buffer) (k : Nat) :
    -32767 ≤ (outputSample Config.chip d y k).toInt ∧ (outputSample Config.chip d y k).toInt ≤ 32767 := by
  obtain ⟨hlow, hhigh⟩ := clampSample_bounds Config.chip d k (y k)
  simp only [chip_num, binary64_le, binary64_negOne, binary64_one] at hlow hhigh
  exact pcmReference_bounds hlow hhigh

/-- What a buffer transaction that is answered puts out: each Layer's tick and mix, and the bytes of the weighted sum of the
four buffers (43_mixer R239, R240). -/
theorem execBuf_answer (s t : State) (h : exec .buf s = .next t) :
    ∃ X : Fin 4 → Buffer,
      (∀ l, ∃ M, layerTick Config.chip s.freeDraws (s.layer.get l) = .ok M ∧
        layerMix Config.chip M = (t.layer.get l, X l)) ∧
      t.audioOut = outputBytes Config.chip s.freeDraws
        (scaleBuf Config.chip (sumBufs Config.chip [X 0, X 1, X 2, X 3]) (masterWeight Config.chip s)) := by
  obtain ⟨q, x, hq, rfl⟩ := execBuf_next s t h
  obtain ⟨X, hX, rfl⟩ := layersNextBuffer_ok _ _ _ _ _ hq
  exact ⟨X, fun l => (layerNextBuffer_ok _ _ _ _).mp (hX l), rfl⟩

/-- The block's weighted sum of four buffers, sample by sample, in binary64 (43_mixer R230, R240). -/
theorem scaleBuf_sumBufs_chip (A B C D : Buffer) (w : Num64) (k : Nat) :
    scaleBuf Config.chip (sumBufs Config.chip [A, B, C, D]) w k =
      Num64.mul (Num64.add (Num64.add (Num64.add (Num64.add Num64.zero (A k)) (B k)) (C k)) (D k)) w := by
  rw [← binary64_zero]
  rfl

/-- Settles O57: the answer's samples are those of the weighted sum, which the clamp keeps within 32767. -/
theorem bufferAnswersBoundedSamples : Obligations.BufferAnswersBoundedSamples := by
  intro s t h
  obtain ⟨X, hX, hout⟩ := execBuf_answer s t h
  refine ⟨X, outputSample Config.chip s.freeDraws
    (scaleBuf Config.chip (sumBufs Config.chip [X 0, X 1, X 2, X 3]) (masterWeight Config.chip s)), hX, fun k => ?_,
    outputSample_bounds _ _, execBuf_audioOut_length s t h, fun k hk => ?_⟩
  · rw [outputSample, scaleBuf_sumBufs_chip]
    rfl
  · rw [hout]
    exact outputBytes_getElem? _ _ _ hk

/-! ## Silence (43_mixer R232, R244) -/

/-- A finite word stands for a dyadic of its sign. -/
theorem val_of_isFinite {x : Num64} (h : Num64.isFinite x = true) : ∃ m e, Num64.val x = .fin (Num64.neg x) m e := by
  have hexp : Num64.mag x / 2 ^ 52 ≠ 2047 := by
    have hmag : Num64.mag x < 0x7FF0000000000000 := by simpa [Num64.isFinite] using h
    omega
  unfold Num64.val
  simp only [hexp, if_false]
  split <;> exact ⟨_, _, rfl⟩

/-- A zero times a finite word is a zero. -/
theorem mul_zeroOf {b : Bool} {x : Num64} (h : Num64.isFinite x = true) :
    Num64.mul (Num64.zeroOf b) x = Num64.zeroOf (b != Num64.neg x) := by
  obtain ⟨m, e, hx⟩ := val_of_isFinite h
  have hzero : Num64.val (Num64.zeroOf b) = .fin b 0 (-1074) := by cases b <;> decide
  rw [Num64.mul, hzero, hx]
  simp [Num64.round]

/-- Adding a zero of either sign to `+0` gives `+0`. -/
theorem add_zero_zeroOf : ∀ b, Num64.add Num64.zero (Num64.zeroOf b) = Num64.zero := by decide

/-- A buffer of zeros, of either sign each. -/
def SilentBuffer (A : Buffer) : Prop := ∀ k, ∃ b, A k = Num64.zeroOf b

theorem silentBuffer_zeros : SilentBuffer (zeros Config.chip) := fun _ => ⟨false, binary64_zero⟩

/-- The sum of four silent buffers under a finite weight is silent (43_mixer R230). -/
theorem silentBuffer_weighted {A B C D : Buffer} {w : Num64} (hA : SilentBuffer A) (hB : SilentBuffer B)
    (hC : SilentBuffer C) (hD : SilentBuffer D) (hw : Num64.isFinite w = true) :
    SilentBuffer (scaleBuf Config.chip (sumBufs Config.chip [A, B, C, D]) w) := by
  intro k
  obtain ⟨a, ha⟩ := hA k
  obtain ⟨b, hb⟩ := hB k
  obtain ⟨c, hc⟩ := hC k
  obtain ⟨d, hd⟩ := hD k
  rw [scaleBuf_sumBufs_chip, ha, hb, hc, hd]
  simp only [add_zero_zeroOf]
  exact ⟨_, mul_zeroOf (b := false) hw⟩

/-- A Bank without voices puts out zeros (43_mixer R232). -/
theorem bankNextBuffer_silent {B : Bank} (h : NoVoices B) : SilentBuffer (bankNextBuffer Config.chip B).2 := by
  have hcount : voiceCount (bankPrune B) = 0 :=
    congrArg List.length (voicesOf_empty _ fun s => bankPrune_get_of_empty (h s))
  rw [bankNextBuffer_buffer_of_silent ((bankSilent_iff _ _).mpr (Or.inl hcount))]
  exact silentBuffer_zeros

/-- A Layer without voices and of a finite weight puts out zeros (43_mixer R238). -/
theorem layerMix_silent {L : Layer} (h : ∀ b, NoVoices (L.bank.get b))
    (hw : Num64.isFinite (layerWeight Config.chip L) = true) : SilentBuffer (layerMix Config.chip L).2 := by
  have hbank (b : Fin 4) := bankNextBuffer_silent (h b)
  rw [layerMix_buffer]
  split
  · exact silentBuffer_zeros
  · exact silentBuffer_weighted (hbank 0) (hbank 1) (hbank 2) (hbank 3) hw

/-- The edges put no event into an empty Recorder (42_recorder R201, R202). -/
theorem tickEdges_events_nil {R : Recorder} (arm : Bool) (h : R.events = []) : (tickEdges arm R).events = [] := by
  cases arm <;> cases ha : R.armed <;>
    simp [tickEdges_arm, tickEdges_armed_armed, tickEdges_disarm, tickEdges_idle, ha, h]

/-- A Recorder without events replays nothing (42_recorder R205, R207). -/
theorem tick_of_no_events {c : Config} {arm : Bool} {R Q : Recorder} {r : Option Action} (hR : R.events = [])
    (h : tick c arm R = .ok (Q, r)) : r = none := by
  cases r with
  | none => rfl
  | some a =>
    obtain ⟨_, hevents, _⟩ := tick_keeps c arm R Q _ h
    have hget := (tick_returns c arm R Q a h).2
    rw [hevents, tickEdges_events_nil arm hR] at hget
    cases hget

/-- The tick of a Layer without recorded events writes its Recorder alone (43_mixer R236). -/
theorem layerTick_of_no_events {c : Config} {d : Nat} {L M : Layer} (hL : L.recorder.events = [])
    (h : layerTick c d L = .ok M) : ∃ R, M = { L with recorder := R } := by
  unfold layerTick at h
  split at h
  next => cases h
  next R _ => exact ⟨R, (Except.ok.inj h).symm⟩
  next hreplay => cases tick_of_no_events hL hreplay

/-- A zero is put out as the code 0, whatever its sign (43_mixer R241, R242). -/
theorem outputSample_of_zero {y : Buffer} (d k : Nat) (h : SilentBuffer y) : outputSample Config.chip d y k = 0#16 := by
  obtain ⟨b, hb⟩ := h k
  have hclamp : clampSample Config.chip d k (Num64.zeroOf b) = Num64.zeroOf b := by
    rw [clampSample_of_notNaN d k (show Num64.isNaN (Num64.zeroOf b) = false by cases b <;> decide)]
    simp only [chip_num, binary64_negOne, binary64_one, NumType.clamp, binary64_lt]
    cases b <;> decide
  rw [outputSample, hb, hclamp]
  cases b <;> decide

theorem outputBytes_silent {y : Buffer} (d : Nat) (h : SilentBuffer y) :
    outputBytes Config.chip d y = List.replicate (2 * Config.chip.bufferSamples) 0#8 := by
  refine List.eq_replicate_iff.mpr ⟨outputBytes_length _ d y, fun b hb => ?_⟩
  obtain ⟨k, _, hk⟩ := List.mem_flatMap.mp hb
  rw [outputSample_of_zero d k h] at hk
  simpa [sampleBytes] using hk

/-- Settles O58: the buffers of the Banks, of the Layers and of the mix are silent in turn. -/
theorem blockWithoutVoicesIsSilent : Obligations.BlockWithoutVoicesIsSilent := by
  intro s t hvoices hevents hlayer hmaster h
  obtain ⟨X, hX, hout⟩ := execBuf_answer s t h
  have hsilent (l : Fin 4) : SilentBuffer (X l) := by
    obtain ⟨M, htick, hmix⟩ := hX l
    obtain ⟨R, rfl⟩ := layerTick_of_no_events (hevents l) htick
    rw [← show (layerMix Config.chip _).2 = X l from congrArg Prod.snd hmix]
    exact layerMix_silent (hvoices l) (hlayer l)
  rw [hout]
  exact outputBytes_silent _ (silentBuffer_weighted (hsilent 0) (hsilent 1) (hsilent 2) (hsilent 3) hmaster)

end Sys2Proof.Proofs

/-! Stops (60_exceptions R262, R263): where no fault can occur, and that a stopped run stays stopped. -/

namespace Sys2Proof.Proofs

open Sys2Proof Sys2Proof.Machine Sys2Proof.Laws

/-! ## Unbounded widths -/

section Unbounded

variable {c : Config}

theorem tsFits_of_unbounded (hts : c.tsBitsLess32 = none) (n : Nat) : c.tsFits n = true := by
  simp [Config.tsFits, hts]

theorem octFits_of_unbounded (hoct : c.octBitsLess8 = none) (o : Int) : c.octFits o = true := by
  simp [Config.octFits, hoct]

/-- The only fault of a dispatch is an octave that does not fit (41_actions R169). -/
theorem layerApply_ne_error_of_unbounded (hoct : c.octBitsLess8 = none) (d : Nat) (a : Action) (live : Bool) (L : Layer)
    (f : Fault) : layerApply c d a live L ≠ .error f := by
  simp [layerApply_error, octFits_of_unbounded hoct]

theorem dispatchAction_ne_fault_of_unbounded (hoct : c.octBitsLess8 = none) (a : Action) (s : State) (f : Fault) :
    dispatchAction c a s ≠ .fault f := by
  simp [dispatchAction_fault, octFits_of_unbounded hoct]

theorem applyAction_ne_fault_of_unbounded (hoct : c.octBitsLess8 = none) (a : Action) (s : State) (f : Fault) :
    applyAction c a s ≠ .fault f := by
  cases hwf : wellFormedAction c a with
  | true => exact applyAction_of_wellFormed c a s hwf ▸ dispatchAction_ne_fault_of_unbounded hoct a s f
  | false => simp [applyAction_of_illFormed c a s hwf]

/-- The only fault of a tick is a counter that does not fit (42_recorder R212). -/
theorem tick_ne_error_of_unbounded (hts : c.tsBitsLess32 = none) (arm : Bool) (R : Recorder) (f : Fault) :
    tick c arm R ≠ .error f := by
  simp [tick_error, tsFits_of_unbounded hts]

/-- Neither the tick faults nor the replay, whatever action the Recorder holds: no invariant is needed here. -/
theorem layerTick_ne_error_of_unbounded (hts : c.tsBitsLess32 = none) (hoct : c.octBitsLess8 = none) (d : Nat)
    (L : Layer) (f : Fault) : layerTick c d L ≠ .error f := by
  unfold layerTick
  split
  next g hg => exact absurd hg (tick_ne_error_of_unbounded hts _ _ g)
  next => nofun
  next a _ =>
    split
    · nofun
    · exact layerApply_ne_error_of_unbounded hoct d a false _ f

theorem synthNextBuffer_ne_fault_of_unbounded (hts : c.tsBitsLess32 = none) (hoct : c.octBitsLess8 = none) (s : State)
    (f : Fault) : synthNextBuffer c s ≠ .fault f := by
  intro h
  obtain ⟨l, hl⟩ := layersNextBuffer_error c _ _ f ((synthNextBuffer_fault c s f).mp h)
  exact layerTick_ne_error_of_unbounded hts hoct _ _ f ((layerNextBuffer_error c _ _ f).mp hl)

end Unbounded

/-- Settles O21: an octave always fits, and so does a counter. -/
theorem unboundedWidthsNeverFault : Obligations.UnboundedWidthsNeverFault := fun _ s a f hts hoct =>
  ⟨applyAction_ne_fault_of_unbounded hoct a s f, synthNextBuffer_ne_fault_of_unbounded hts hoct s f⟩

/-! ## Stopped runs -/

/-- A stopped run answers its stop, whatever its stream holds (60_exceptions R262, R263). -/
theorem step_of_stoppedBy (s : State) (o : Result) (h : stoppedBy s = some o) : step s = o := by
  simp only [step, h]

/-- A run that is not stopped waits for its next transaction (70_reset R290). -/
theorem step_of_stream_nil (s : State) (hrun : stoppedBy s = none) (hs : s.stream = []) : step s = .next s := by
  simp only [step, hrun, hs]

/-- A transaction that decodes to no instruction is refused as an ill-formed action (41_actions R150, log 15). -/
theorem step_of_decodeTxn_error (s : State) (x : Txn) (rest : List Txn) (e : DecodeError) (hrun : stoppedBy s = none)
    (hs : s.stream = x :: rest) (hx : decodeTxn x = .error e) : step s = .refused .illFormedAction := by
  simp only [step, hrun, hs, hx, refuseIllFormed]

theorem stoppedBy_afterTransaction_refused (s : State) (r : Refusal) :
    stoppedBy (afterTransaction s (.refused r)) = some (.refused r) := rfl

/-- The mark is read before the record, so the record is the stop where there is no mark. -/
theorem stoppedBy_afterTransaction_fault (s : State) (f : Fault) (hr : s.refusalMark = none) :
    stoppedBy (afterTransaction s (.fault f)) = some (.fault f) := by
  simp only [stoppedBy, afterTransaction, hr]

/-- Settles O8: a state with neither mark nor record is not stopped, and the stop it then records is answered again. -/
theorem stoppedRunStaysStopped : Obligations.StoppedRunStaysStopped := by
  intro s hr hf
  have hrun : stoppedBy s = none := (stoppedBy_none s).mpr ⟨hr, hf⟩
  refine ⟨step_of_stream_nil s hrun, fun x rest e => step_of_decodeTxn_error s x rest e hrun, fun r => ⟨rfl, ?_⟩,
    fun f => ⟨rfl, ?_⟩⟩
  · exact step_of_stoppedBy _ _ (stoppedBy_afterTransaction_refused s r)
  · exact step_of_stoppedBy _ _ (stoppedBy_afterTransaction_fault s f hr)

end Sys2Proof.Proofs

/-! The state after reset (70_reset R290, R292): its values, that the block waits in it, and that it meets the invariant. -/

namespace Sys2Proof.Proofs

open Sys2Proof Sys2Proof.Machine Sys2Proof.Safety Sys2Proof.Laws

/-- Reset gives each of the four Layers the same values. -/
theorem initial_layer_get (c : Config) (l : Fin 4) : (State.initial c).layer.get l = Layer.initial c :=
  quad_get_all _ l

/-- Reset gives each of a Layer's four Banks the same values. -/
theorem layerInitial_bank_get (c : Config) (b : Fin 4) : (Layer.initial c).bank.get b = Bank.initial c :=
  quad_get_all _ b

theorem noVoices_bankInitial (c : Config) : NoVoices (Bank.initial c) := slots_get_replicate

/-- The block has no stop to answer after reset and no transaction to take, so it waits (70_reset R290). -/
theorem step_reset : step State.reset = .next State.reset :=
  step_of_stream_nil State.reset ((stoppedBy_none State.reset).mpr ⟨rfl, rfl⟩) rfl

/-- Settles O9: the Synth's values are those of the definition, a Layer's and a Bank's those of any Layer and Bank. -/
theorem resetValues : Obligations.ResetValues := by
  refine ⟨rfl, rfl, rfl, rfl, rfl, fun l => ?_, step_reset⟩
  have hlayer : State.reset.layer.get l = Layer.initial Config.chip := initial_layer_get Config.chip l
  rw [hlayer]
  refine ⟨fun b => quad_get_all false b, rfl, rfl, rfl, rfl, rfl, fun b => ?_⟩
  rw [layerInitial_bank_get]
  exact ⟨rfl, noVoices_bankInitial Config.chip, rfl⟩

/-- Each Layer of the reset state is a fresh one, which meets the invariant whatever the raw factory values (70_reset R292). -/
theorem stateInv_initial (c : Config) : StateInv c (State.initial c) := fun l =>
  (initial_layer_get c l).symm ▸ layerInv_initial c

/-- Settles O10: the reset state of the block is that under the chip's parameters. -/
theorem resetMeetsInvariant : Obligations.ResetMeetsInvariant := ⟨stateInv_initial Config.chip, stateInv_initial⟩

end Sys2Proof.Proofs
